-- ==== Sys2Proof/Word.lean ====
section
/-! DEFINITION. The words of the VSP line engine (00_scope.md R6, R8). -/

namespace Sys2Proof

/-- A byte of the data stream, and every 8-bit field (R6). -/
abbrev Byte := BitVec 8

/-- A state word, a mask, an event operand: 32 bits (R6). -/
abbrev Word := BitVec 32

/-- A command or response frame: 96 bits, bit 0 the least significant (30_encoding.md R90, R93). -/
abbrev Frame := BitVec 96

/-- The TAG of a frame (R90). -/
abbrev Tag := BitVec 8

/-- A flag as a 32-bit result word: 0 or 1. -/
def boolWord (b : Bool) : Word := if b then 1#32 else 0#32

end Sys2Proof
end

