-- ==== Sys2Proof/Config.lean ====
section
/-! DEFINITION. What an implementation of the engine fixes: the five parameters of 00_scope.md R5. -/

namespace Sys2Proof

/-- The implementation parameters (R5). "The model takes these parameters as arguments": they stand in the state as a
field that no step writes, so a statement about every state is a statement about every value of them
(DESIGN CHOICE, log entry 1). -/
structure Params where
  /-- `DEPTH_RX`, bytes of physical storage of the RX ring buffer -/
  depthRx : Nat
  /-- `DEPTH_TX`, bytes of physical storage of the TX ring buffer -/
  depthTx : Nat
  /-- `NWATCH`, number of watcher slots -/
  nwatch : Nat
  /-- `MIN_BAUD`, lowest accepted data rate -/
  minBaud : Nat
  /-- `MAX_BAUD`, highest accepted data rate -/
  maxBaud : Nat
  deriving DecidableEq, Repr

/-- The values `State.reset` takes for the parameters: those of the conventions of 95_test_vectors.md and of the
document's own scenario (64 bytes per direction). DESIGN CHOICE, log entry 1: R5 leaves them open. -/
def Params.sample : Params :=
  { depthRx := 64, depthTx := 64, nwatch := 4, minBaud := 50, maxBaud := 115200 }

end Sys2Proof
end

