-- ==== Sys2Proof/Syntax.lean ====
section
/-! DEFINITION. The syntax of commands: one constructor per row of spec/opcode_table.json (30_encoding.md R96, R97). -/

namespace Sys2Proof

/-- The direction of a ring buffer: RX (wire to host) or TX (host to wire) (00_scope.md R9, R16). -/
inductive Dir where
  | rx
  | tx
  deriving DecidableEq, Repr

/-- The command ports H (host side) and W (wire side) (20_memory.md R66, R67). -/
inductive Port where
  | H
  | W
  deriving DecidableEq, Repr

/-- A command as an initiator presents it: the 96-bit frame and the payload that follows it (R90, R92). -/
structure Command where
  frame : Frame
  payload : List Byte
  deriving DecidableEq, Repr

/-- The operations of the engine. Every command carries its TAG, which the response echoes (R93); an operand that the
operation's rule does not name is ignored (R91) and is no field. An input payload is an operand of the three operations
that carry one, and the frame's `A` is its length (R92). -/
inductive Instr where
  /-- RB_INIT, R121: `a` the capacity -/
  | rbInit (d : Dir) (tag : Tag) (a : Word)
  /-- RB_PUSH, R122: `a` the byte, `a[31:8]` zero or BadArgument -/
  | rbPush (d : Dir) (tag : Tag) (a : Word)
  /-- RB_POP, R123 -/
  | rbPop (d : Dir) (tag : Tag)
  /-- RB_PUSHBULK, R124: operand `A` is the length of `bytes` -/
  | rbPushbulk (d : Dir) (tag : Tag) (bytes : List Byte)
  /-- RB_POPBULK, R125: `a` is maxBytes -/
  | rbPopbulk (d : Dir) (tag : Tag) (a : Word)
  /-- RB_FREE, R126 -/
  | rbFree (d : Dir) (tag : Tag)
  /-- RB_USED, R127 -/
  | rbUsed (d : Dir) (tag : Tag)
  /-- RB_CAP, R128 -/
  | rbCap (d : Dir) (tag : Tag)
  /-- RB_STATUS, R129 -/
  | rbStatus (d : Dir) (tag : Tag)
  /-- RB_BEGINDR, R130: `a` is maxSize -/
  | rbBegindr (d : Dir) (tag : Tag) (a : Word)
  /-- RB_ENDDR, R131: `a` the size -/
  | rbEnddr (d : Dir) (tag : Tag) (a : Word)
  /-- RB_CLOSE, R132 -/
  | rbClose (d : Dir) (tag : Tag)
  /-- ACQUIRE, R152: `blocking` is `SEL[0]`; `tag` the watcher slot if it parks -/
  | acquire (blocking : Bool) (tag : Tag)
  /-- RELEASE, R155 -/
  | release (tag : Tag)
  /-- LRESET, R156 -/
  | lreset (tag : Tag)
  /-- SETSTATE, R158: `a` newBits, `b` mask -/
  | setstate (tag : Tag) (a : Word) (b : Word)
  /-- GETSTATE, R160 -/
  | getstate (tag : Tag)
  /-- WATCHSTATE, R163: `a` targetBits, `b` mask, `tag` the watcher slot -/
  | watchstate (tag : Tag) (a : Word) (b : Word)
  /-- CANCELWAIT, R168: `tag` the slot to abort -/
  | cancelwait (tag : Tag)
  /-- TERMINATE, R170 -/
  | terminate (tag : Tag)
  /-- SNAPSHOT, R172 -/
  | snapshot (tag : Tag)
  /-- ENQ_RX, R263: operand `A` is the length of `bytes` -/
  | enqRx (tag : Tag) (bytes : List Byte)
  /-- DEQ_RX, R266: `a` maxBytes, `b` minBytes -/
  | deqRx (tag : Tag) (a : Word) (b : Word)
  /-- ENQ_TX, R269: operand `A` is the length of `bytes` -/
  | enqTx (tag : Tag) (bytes : List Byte)
  /-- EXEC EV_ACTIVE, R191 -/
  | execEvActive (tag : Tag) (a : Word)
  /-- EXEC EV_DATA_RATE, R192 -/
  | execEvDataRate (tag : Tag) (a : Word)
  /-- EXEC EV_DATA_SIZE, R193 -/
  | execEvDataSize (tag : Tag) (a : Word)
  /-- EXEC EV_STOP_BITS, R194 -/
  | execEvStopBits (tag : Tag) (a : Word)
  /-- EXEC EV_TX_PARITY, R195 -/
  | execEvTxParity (tag : Tag) (a : Word)
  /-- EXEC EV_RX_PARITY, R196 -/
  | execEvRxParity (tag : Tag) (a : Word)
  /-- EXEC EV_XON_BYTE, R197 -/
  | execEvXonByte (tag : Tag) (a : Word)
  /-- EXEC EV_XOFF_BYTE, R198 -/
  | execEvXoffByte (tag : Tag) (a : Word)
  /-- EXEC EV_SPECIAL_BYTE, R199 -/
  | execEvSpecialByte (tag : Tag) (a : Word)
  /-- EXEC EV_VALID_DATA_BYTE, R200 -/
  | execEvValidDataByte (tag : Tag) (a : Word)
  /-- EXEC EV_MIN_LATENCY, R201 -/
  | execEvMinLatency (tag : Tag) (a : Word)
  /-- EXEC EV_DATA_LATENCY, R202 -/
  | execEvDataLatency (tag : Tag) (a : Word)
  /-- EXEC EV_CHAR_LATENCY, R203 -/
  | execEvCharLatency (tag : Tag) (a : Word)
  /-- EXEC EV_FLOW_CONTROL, R204 -/
  | execEvFlowControl (tag : Tag) (a : Word)
  /-- EXEC EV_LINE_BREAK, R205 -/
  | execEvLineBreak (tag : Tag) (a : Word)
  /-- EXEC EV_RXQ_SIZE, R206 -/
  | execEvRxqSize (tag : Tag) (a : Word)
  /-- EXEC EV_TXQ_SIZE, R207 -/
  | execEvTxqSize (tag : Tag) (a : Word)
  /-- EXEC EV_RXQ_HIGH_WATER, R208 -/
  | execEvRxqHighWater (tag : Tag) (a : Word)
  /-- EXEC EV_RXQ_LOW_WATER, R209 -/
  | execEvRxqLowWater (tag : Tag) (a : Word)
  /-- EXEC EV_TXQ_HIGH_WATER, R210 -/
  | execEvTxqHighWater (tag : Tag) (a : Word)
  /-- EXEC EV_TXQ_LOW_WATER, R211 -/
  | execEvTxqLowWater (tag : Tag) (a : Word)
  /-- REQ EV_ACTIVE, R231 -/
  | reqEvActive (tag : Tag)
  /-- REQ EV_DATA_RATE, R232 -/
  | reqEvDataRate (tag : Tag)
  /-- REQ EV_DATA_SIZE, R233 -/
  | reqEvDataSize (tag : Tag)
  /-- REQ EV_STOP_BITS, R234 -/
  | reqEvStopBits (tag : Tag)
  /-- REQ EV_TX_PARITY, R235 -/
  | reqEvTxParity (tag : Tag)
  /-- REQ EV_RX_PARITY, R236 -/
  | reqEvRxParity (tag : Tag)
  /-- REQ EV_XON_BYTE, R237 -/
  | reqEvXonByte (tag : Tag)
  /-- REQ EV_XOFF_BYTE, R238 -/
  | reqEvXoffByte (tag : Tag)
  /-- REQ EV_SPECIAL_BYTE, R239 -/
  | reqEvSpecialByte (tag : Tag)
  /-- REQ EV_VALID_DATA_BYTE, R240 -/
  | reqEvValidDataByte (tag : Tag)
  /-- REQ EV_MIN_LATENCY, R241 -/
  | reqEvMinLatency (tag : Tag)
  /-- REQ EV_DATA_LATENCY, R242 -/
  | reqEvDataLatency (tag : Tag)
  /-- REQ EV_CHAR_LATENCY, R243 -/
  | reqEvCharLatency (tag : Tag)
  /-- REQ EV_FLOW_CONTROL, R244 -/
  | reqEvFlowControl (tag : Tag)
  /-- REQ EV_LINE_BREAK, R245 -/
  | reqEvLineBreak (tag : Tag)
  /-- REQ EV_RXQ_SIZE, R246 -/
  | reqEvRxqSize (tag : Tag)
  /-- REQ EV_TXQ_SIZE, R247 -/
  | reqEvTxqSize (tag : Tag)
  /-- REQ EV_RXQ_HIGH_WATER, R248 -/
  | reqEvRxqHighWater (tag : Tag)
  /-- REQ EV_RXQ_LOW_WATER, R249 -/
  | reqEvRxqLowWater (tag : Tag)
  /-- REQ EV_TXQ_HIGH_WATER, R250 -/
  | reqEvTxqHighWater (tag : Tag)
  /-- REQ EV_TXQ_LOW_WATER, R251 -/
  | reqEvTxqLowWater (tag : Tag)
  deriving DecidableEq, Repr

end Sys2Proof
end

