-- ==== Sys2Proof/WellFormed.lean ====
section
/-! DEFINITION. When parameters and commands are well formed. The fields of an instruction have the width of the frame
field they come from, so the only thing a term of `Instr` can have that no frame encodes is a payload too long for `A`. -/

namespace Sys2Proof

/-- The constraints of 00_scope.md R5 on the implementation parameters. -/
abbrev Params.legal (p : Params) : Prop :=
  (1 ≤ p.depthRx ∧ p.depthRx ≤ 2 ^ 31 - 1) ∧ (1 ≤ p.depthTx ∧ p.depthTx ≤ 2 ^ 31 - 1) ∧
  (2 ≤ p.nwatch ∧ p.nwatch ≤ 256) ∧ p.minBaud ≤ 9600 ∧ (19200 ≤ p.maxBaud ∧ p.maxBaud ≤ 2 ^ 32 - 1)

/-- A payload whose length fits the 32-bit operand `A`, which announces it (30_encoding.md R92). -/
abbrev payloadFits (bytes : List Byte) : Prop := bytes.length < 2 ^ 32

/-- The instructions a frame and its payload can carry. -/
abbrev Instr.wellFormed (i : Instr) : Prop :=
  match i with
  | .rbPushbulk _ _ bytes => payloadFits bytes
  | .enqRx _ bytes => payloadFits bytes
  | .enqTx _ bytes => payloadFits bytes
  | _ => True

end Sys2Proof
end

