-- ==== Sys2Proof/Decode.lean ====
section
/-! DEFINITION. Decoding of command frames, and the encoder (30_encoding.md R90 to R98). -/

namespace Sys2Proof

/-! ### Fields of a command frame (R90) -/

/-- `OPC`, `F[7:0]` -/
def opcOf (f : Frame) : Byte := f.extractLsb' 0 8
/-- `SEL`, `F[15:8]` -/
def selOf (f : Frame) : Byte := f.extractLsb' 8 8
/-- `TAG`, `F[23:16]` -/
def tagOf (f : Frame) : Tag := f.extractLsb' 16 8
/-- `RSV`, `F[31:24]`, reserved, must be zero -/
def rsvOf (f : Frame) : Byte := f.extractLsb' 24 8
/-- `A`, `F[63:32]` -/
def operandA (f : Frame) : Word := f.extractLsb' 32 32
/-- `B`, `F[95:64]` -/
def operandB (f : Frame) : Word := f.extractLsb' 64 32

/-- The frame with these fields and `RSV = 0` (R90). -/
def mkFrame (opc sel : Byte) (tag : Tag) (a b : Word) : Frame :=
  b ++ a ++ 0x00#8 ++ tag ++ sel ++ opc

/-! ### The opcode map (R96) and the event kinds (R97) -/

namespace Opc
def rbInit : Byte := 0x00#8
def rbPush : Byte := 0x01#8
def rbPop : Byte := 0x02#8
def rbPushbulk : Byte := 0x03#8
def rbPopbulk : Byte := 0x04#8
def rbFree : Byte := 0x05#8
def rbUsed : Byte := 0x06#8
def rbCap : Byte := 0x07#8
def rbStatus : Byte := 0x08#8
def rbBegindr : Byte := 0x09#8
def rbEnddr : Byte := 0x0A#8
def rbClose : Byte := 0x0B#8
def acquire : Byte := 0x10#8
def release : Byte := 0x11#8
def lreset : Byte := 0x12#8
def setstate : Byte := 0x13#8
def getstate : Byte := 0x14#8
def watchstate : Byte := 0x15#8
def cancelwait : Byte := 0x16#8
def terminate : Byte := 0x17#8
def snapshot : Byte := 0x18#8
def enqRx : Byte := 0x20#8
def deqRx : Byte := 0x21#8
def enqTx : Byte := 0x22#8
/-- EXEC, every event kind -/
def exec : Byte := 0x30#8
/-- REQ, every event kind -/
def req : Byte := 0x31#8
end Opc

namespace Kind
def active : Byte := 0x00#8
def dataRate : Byte := 0x01#8
def dataSize : Byte := 0x02#8
def stopBits : Byte := 0x03#8
def txParity : Byte := 0x04#8
def rxParity : Byte := 0x05#8
def xonByte : Byte := 0x06#8
def xoffByte : Byte := 0x07#8
def specialByte : Byte := 0x08#8
def validDataByte : Byte := 0x09#8
def minLatency : Byte := 0x0A#8
def dataLatency : Byte := 0x0B#8
def charLatency : Byte := 0x0C#8
def flowControl : Byte := 0x0D#8
def lineBreak : Byte := 0x0E#8
def rxqSize : Byte := 0x10#8
def txqSize : Byte := 0x11#8
def rxqHighWater : Byte := 0x12#8
def rxqLowWater : Byte := 0x13#8
def txqHighWater : Byte := 0x14#8
def txqLowWater : Byte := 0x15#8
end Kind

/-! ### The decoder -/

/-- Why a frame names no operation. Each is answered BadArgument (R98, R212, R252), but for the last. -/
inductive DecodeError where
  /-- `OPC` is not in the table of R96 -/
  | unknownOpcode
  /-- `RSV` is not zero (R98) -/
  | reservedField
  /-- `SEL` has bits the opcode does not define (R98) -/
  | badSelector
  /-- `SEL` of EXEC or REQ names no event kind (R212, R252) -/
  | unknownKind
  /-- the payload is not of the length the frame announces (R92): no port can present this (log entry 8) -/
  | payloadLength
  deriving DecidableEq, Repr

/-- The direction of a ring-buffer operation: `SEL[0]`, with `SEL[7:1]` zero (R91, R98). -/
def dirOfSel (sel : Byte) : Option Dir :=
  if sel = 0x00#8 then some .rx else if sel = 0x01#8 then some .tx else none

/-- A direction as a selector. -/
def selOfDir : Dir → Byte
  | .rx => 0x00#8
  | .tx => 0x01#8

/-- The blocking flag of ACQUIRE: `SEL[0]`, with `SEL[7:1]` zero (R96, R98). -/
def blockingOfSel (sel : Byte) : Option Bool :=
  if sel = 0x00#8 then some false else if sel = 0x01#8 then some true else none

/-- A blocking flag as a selector. -/
def selOfBlocking (b : Bool) : Byte := if b then 0x01#8 else 0x00#8

/-- A ring-buffer operation, once its selector is a direction. -/
def decodeRing (sel : Byte) (op : Dir → Instr) : Except DecodeError Instr :=
  match dirOfSel sel with
  | some d => .ok (op d)
  | none => .error .badSelector

/-- An operation whose selector is zero (R98). -/
def decodePlain (sel : Byte) (i : Instr) : Except DecodeError Instr :=
  if sel = 0x00#8 then .ok i else .error .badSelector

/-- ACQUIRE, once its selector is a blocking flag. -/
def decodeAcquire (sel : Byte) (tag : Tag) : Except DecodeError Instr :=
  match blockingOfSel sel with
  | some b => .ok (.acquire b tag)
  | none => .error .badSelector

/-- EXEC by its event kind (R97, R212). -/
def decodeExec (sel : Byte) (tag : Tag) (a : Word) : Except DecodeError Instr :=
  match sel.toNat with
  | 0x00 => .ok (.execEvActive tag a)
  | 0x01 => .ok (.execEvDataRate tag a)
  | 0x02 => .ok (.execEvDataSize tag a)
  | 0x03 => .ok (.execEvStopBits tag a)
  | 0x04 => .ok (.execEvTxParity tag a)
  | 0x05 => .ok (.execEvRxParity tag a)
  | 0x06 => .ok (.execEvXonByte tag a)
  | 0x07 => .ok (.execEvXoffByte tag a)
  | 0x08 => .ok (.execEvSpecialByte tag a)
  | 0x09 => .ok (.execEvValidDataByte tag a)
  | 0x0A => .ok (.execEvMinLatency tag a)
  | 0x0B => .ok (.execEvDataLatency tag a)
  | 0x0C => .ok (.execEvCharLatency tag a)
  | 0x0D => .ok (.execEvFlowControl tag a)
  | 0x0E => .ok (.execEvLineBreak tag a)
  | 0x10 => .ok (.execEvRxqSize tag a)
  | 0x11 => .ok (.execEvTxqSize tag a)
  | 0x12 => .ok (.execEvRxqHighWater tag a)
  | 0x13 => .ok (.execEvRxqLowWater tag a)
  | 0x14 => .ok (.execEvTxqHighWater tag a)
  | 0x15 => .ok (.execEvTxqLowWater tag a)
  | _ => .error .unknownKind

/-- REQ by its event kind (R97, R252). -/
def decodeReq (sel : Byte) (tag : Tag) : Except DecodeError Instr :=
  match sel.toNat with
  | 0x00 => .ok (.reqEvActive tag)
  | 0x01 => .ok (.reqEvDataRate tag)
  | 0x02 => .ok (.reqEvDataSize tag)
  | 0x03 => .ok (.reqEvStopBits tag)
  | 0x04 => .ok (.reqEvTxParity tag)
  | 0x05 => .ok (.reqEvRxParity tag)
  | 0x06 => .ok (.reqEvXonByte tag)
  | 0x07 => .ok (.reqEvXoffByte tag)
  | 0x08 => .ok (.reqEvSpecialByte tag)
  | 0x09 => .ok (.reqEvValidDataByte tag)
  | 0x0A => .ok (.reqEvMinLatency tag)
  | 0x0B => .ok (.reqEvDataLatency tag)
  | 0x0C => .ok (.reqEvCharLatency tag)
  | 0x0D => .ok (.reqEvFlowControl tag)
  | 0x0E => .ok (.reqEvLineBreak tag)
  | 0x10 => .ok (.reqEvRxqSize tag)
  | 0x11 => .ok (.reqEvTxqSize tag)
  | 0x12 => .ok (.reqEvRxqHighWater tag)
  | 0x13 => .ok (.reqEvRxqLowWater tag)
  | 0x14 => .ok (.reqEvTxqHighWater tag)
  | 0x15 => .ok (.reqEvTxqLowWater tag)
  | _ => .error .unknownKind

/-- The operation a frame names, its payload operand being the bytes given (R96). -/
def decodeFields (opc sel : Byte) (tag : Tag) (a b : Word) (bytes : List Byte) : Except DecodeError Instr :=
  match opc.toNat with
  | 0x00 => decodeRing sel fun d => .rbInit d tag a
  | 0x01 => decodeRing sel fun d => .rbPush d tag a
  | 0x02 => decodeRing sel fun d => .rbPop d tag
  | 0x03 => decodeRing sel fun d => .rbPushbulk d tag bytes
  | 0x04 => decodeRing sel fun d => .rbPopbulk d tag a
  | 0x05 => decodeRing sel fun d => .rbFree d tag
  | 0x06 => decodeRing sel fun d => .rbUsed d tag
  | 0x07 => decodeRing sel fun d => .rbCap d tag
  | 0x08 => decodeRing sel fun d => .rbStatus d tag
  | 0x09 => decodeRing sel fun d => .rbBegindr d tag a
  | 0x0A => decodeRing sel fun d => .rbEnddr d tag a
  | 0x0B => decodeRing sel fun d => .rbClose d tag
  | 0x10 => decodeAcquire sel tag
  | 0x11 => decodePlain sel (.release tag)
  | 0x12 => decodePlain sel (.lreset tag)
  | 0x13 => decodePlain sel (.setstate tag a b)
  | 0x14 => decodePlain sel (.getstate tag)
  | 0x15 => decodePlain sel (.watchstate tag a b)
  | 0x16 => decodePlain sel (.cancelwait tag)
  | 0x17 => decodePlain sel (.terminate tag)
  | 0x18 => decodePlain sel (.snapshot tag)
  | 0x20 => decodePlain sel (.enqRx tag bytes)
  | 0x21 => decodePlain sel (.deqRx tag a b)
  | 0x22 => decodePlain sel (.enqTx tag bytes)
  | 0x30 => decodeExec sel tag a
  | 0x31 => decodeReq sel tag
  | _ => .error .unknownOpcode

/-- How many payload bytes follow a frame (R92): `A` for RB_PUSHBULK, ENQ_RX and ENQ_TX, none otherwise. -/
def payloadLength (f : Frame) : Nat :=
  if opcOf f = Opc.rbPushbulk ∨ opcOf f = Opc.enqRx ∨ opcOf f = Opc.enqTx then (operandA f).toNat else 0

/-- The decoder: total, a malformed frame rejected by name before its payload is looked at (R98). -/
def decode (f : Frame) (bytes : List Byte) : Except DecodeError Instr :=
  if rsvOf f ≠ 0x00#8 then .error .reservedField
  else match decodeFields (opcOf f) (selOf f) (tagOf f) (operandA f) (operandB f) bytes with
    | .error e => .error e
    | .ok i => if bytes.length = payloadLength f then .ok i else .error .payloadLength

/-! ### The encoder -/

/-- The TAG of an instruction. -/
def Instr.tag : Instr → Tag
  | .rbInit _ tag _ => tag
  | .rbPush _ tag _ => tag
  | .rbPop _ tag => tag
  | .rbPushbulk _ tag _ => tag
  | .rbPopbulk _ tag _ => tag
  | .rbFree _ tag => tag
  | .rbUsed _ tag => tag
  | .rbCap _ tag => tag
  | .rbStatus _ tag => tag
  | .rbBegindr _ tag _ => tag
  | .rbEnddr _ tag _ => tag
  | .rbClose _ tag => tag
  | .acquire _ tag => tag
  | .release tag => tag
  | .lreset tag => tag
  | .setstate tag _ _ => tag
  | .getstate tag => tag
  | .watchstate tag _ _ => tag
  | .cancelwait tag => tag
  | .terminate tag => tag
  | .snapshot tag => tag
  | .enqRx tag _ => tag
  | .deqRx tag _ _ => tag
  | .enqTx tag _ => tag
  | .execEvActive tag _ => tag
  | .execEvDataRate tag _ => tag
  | .execEvDataSize tag _ => tag
  | .execEvStopBits tag _ => tag
  | .execEvTxParity tag _ => tag
  | .execEvRxParity tag _ => tag
  | .execEvXonByte tag _ => tag
  | .execEvXoffByte tag _ => tag
  | .execEvSpecialByte tag _ => tag
  | .execEvValidDataByte tag _ => tag
  | .execEvMinLatency tag _ => tag
  | .execEvDataLatency tag _ => tag
  | .execEvCharLatency tag _ => tag
  | .execEvFlowControl tag _ => tag
  | .execEvLineBreak tag _ => tag
  | .execEvRxqSize tag _ => tag
  | .execEvTxqSize tag _ => tag
  | .execEvRxqHighWater tag _ => tag
  | .execEvRxqLowWater tag _ => tag
  | .execEvTxqHighWater tag _ => tag
  | .execEvTxqLowWater tag _ => tag
  | .reqEvActive tag => tag
  | .reqEvDataRate tag => tag
  | .reqEvDataSize tag => tag
  | .reqEvStopBits tag => tag
  | .reqEvTxParity tag => tag
  | .reqEvRxParity tag => tag
  | .reqEvXonByte tag => tag
  | .reqEvXoffByte tag => tag
  | .reqEvSpecialByte tag => tag
  | .reqEvValidDataByte tag => tag
  | .reqEvMinLatency tag => tag
  | .reqEvDataLatency tag => tag
  | .reqEvCharLatency tag => tag
  | .reqEvFlowControl tag => tag
  | .reqEvLineBreak tag => tag
  | .reqEvRxqSize tag => tag
  | .reqEvTxqSize tag => tag
  | .reqEvRxqHighWater tag => tag
  | .reqEvRxqLowWater tag => tag
  | .reqEvTxqHighWater tag => tag
  | .reqEvTxqLowWater tag => tag

/-- The OPC of an instruction (R96). -/
def Instr.opc : Instr → Byte
  | .rbInit _ _ _ => Opc.rbInit
  | .rbPush _ _ _ => Opc.rbPush
  | .rbPop _ _ => Opc.rbPop
  | .rbPushbulk _ _ _ => Opc.rbPushbulk
  | .rbPopbulk _ _ _ => Opc.rbPopbulk
  | .rbFree _ _ => Opc.rbFree
  | .rbUsed _ _ => Opc.rbUsed
  | .rbCap _ _ => Opc.rbCap
  | .rbStatus _ _ => Opc.rbStatus
  | .rbBegindr _ _ _ => Opc.rbBegindr
  | .rbEnddr _ _ _ => Opc.rbEnddr
  | .rbClose _ _ => Opc.rbClose
  | .acquire _ _ => Opc.acquire
  | .release _ => Opc.release
  | .lreset _ => Opc.lreset
  | .setstate _ _ _ => Opc.setstate
  | .getstate _ => Opc.getstate
  | .watchstate _ _ _ => Opc.watchstate
  | .cancelwait _ => Opc.cancelwait
  | .terminate _ => Opc.terminate
  | .snapshot _ => Opc.snapshot
  | .enqRx _ _ => Opc.enqRx
  | .deqRx _ _ _ => Opc.deqRx
  | .enqTx _ _ => Opc.enqTx
  | .execEvActive _ _ => Opc.exec
  | .execEvDataRate _ _ => Opc.exec
  | .execEvDataSize _ _ => Opc.exec
  | .execEvStopBits _ _ => Opc.exec
  | .execEvTxParity _ _ => Opc.exec
  | .execEvRxParity _ _ => Opc.exec
  | .execEvXonByte _ _ => Opc.exec
  | .execEvXoffByte _ _ => Opc.exec
  | .execEvSpecialByte _ _ => Opc.exec
  | .execEvValidDataByte _ _ => Opc.exec
  | .execEvMinLatency _ _ => Opc.exec
  | .execEvDataLatency _ _ => Opc.exec
  | .execEvCharLatency _ _ => Opc.exec
  | .execEvFlowControl _ _ => Opc.exec
  | .execEvLineBreak _ _ => Opc.exec
  | .execEvRxqSize _ _ => Opc.exec
  | .execEvTxqSize _ _ => Opc.exec
  | .execEvRxqHighWater _ _ => Opc.exec
  | .execEvRxqLowWater _ _ => Opc.exec
  | .execEvTxqHighWater _ _ => Opc.exec
  | .execEvTxqLowWater _ _ => Opc.exec
  | .reqEvActive _ => Opc.req
  | .reqEvDataRate _ => Opc.req
  | .reqEvDataSize _ => Opc.req
  | .reqEvStopBits _ => Opc.req
  | .reqEvTxParity _ => Opc.req
  | .reqEvRxParity _ => Opc.req
  | .reqEvXonByte _ => Opc.req
  | .reqEvXoffByte _ => Opc.req
  | .reqEvSpecialByte _ => Opc.req
  | .reqEvValidDataByte _ => Opc.req
  | .reqEvMinLatency _ => Opc.req
  | .reqEvDataLatency _ => Opc.req
  | .reqEvCharLatency _ => Opc.req
  | .reqEvFlowControl _ => Opc.req
  | .reqEvLineBreak _ => Opc.req
  | .reqEvRxqSize _ => Opc.req
  | .reqEvTxqSize _ => Opc.req
  | .reqEvRxqHighWater _ => Opc.req
  | .reqEvRxqLowWater _ => Opc.req
  | .reqEvTxqHighWater _ => Opc.req
  | .reqEvTxqLowWater _ => Opc.req

/-- The SEL of an instruction (R91, R96, R97). -/
def Instr.sel : Instr → Byte
  | .rbInit d _ _ => selOfDir d
  | .rbPush d _ _ => selOfDir d
  | .rbPop d _ => selOfDir d
  | .rbPushbulk d _ _ => selOfDir d
  | .rbPopbulk d _ _ => selOfDir d
  | .rbFree d _ => selOfDir d
  | .rbUsed d _ => selOfDir d
  | .rbCap d _ => selOfDir d
  | .rbStatus d _ => selOfDir d
  | .rbBegindr d _ _ => selOfDir d
  | .rbEnddr d _ _ => selOfDir d
  | .rbClose d _ => selOfDir d
  | .acquire b _ => selOfBlocking b
  | .release _ => 0x00#8
  | .lreset _ => 0x00#8
  | .setstate _ _ _ => 0x00#8
  | .getstate _ => 0x00#8
  | .watchstate _ _ _ => 0x00#8
  | .cancelwait _ => 0x00#8
  | .terminate _ => 0x00#8
  | .snapshot _ => 0x00#8
  | .enqRx _ _ => 0x00#8
  | .deqRx _ _ _ => 0x00#8
  | .enqTx _ _ => 0x00#8
  | .execEvActive _ _ => Kind.active
  | .execEvDataRate _ _ => Kind.dataRate
  | .execEvDataSize _ _ => Kind.dataSize
  | .execEvStopBits _ _ => Kind.stopBits
  | .execEvTxParity _ _ => Kind.txParity
  | .execEvRxParity _ _ => Kind.rxParity
  | .execEvXonByte _ _ => Kind.xonByte
  | .execEvXoffByte _ _ => Kind.xoffByte
  | .execEvSpecialByte _ _ => Kind.specialByte
  | .execEvValidDataByte _ _ => Kind.validDataByte
  | .execEvMinLatency _ _ => Kind.minLatency
  | .execEvDataLatency _ _ => Kind.dataLatency
  | .execEvCharLatency _ _ => Kind.charLatency
  | .execEvFlowControl _ _ => Kind.flowControl
  | .execEvLineBreak _ _ => Kind.lineBreak
  | .execEvRxqSize _ _ => Kind.rxqSize
  | .execEvTxqSize _ _ => Kind.txqSize
  | .execEvRxqHighWater _ _ => Kind.rxqHighWater
  | .execEvRxqLowWater _ _ => Kind.rxqLowWater
  | .execEvTxqHighWater _ _ => Kind.txqHighWater
  | .execEvTxqLowWater _ _ => Kind.txqLowWater
  | .reqEvActive _ => Kind.active
  | .reqEvDataRate _ => Kind.dataRate
  | .reqEvDataSize _ => Kind.dataSize
  | .reqEvStopBits _ => Kind.stopBits
  | .reqEvTxParity _ => Kind.txParity
  | .reqEvRxParity _ => Kind.rxParity
  | .reqEvXonByte _ => Kind.xonByte
  | .reqEvXoffByte _ => Kind.xoffByte
  | .reqEvSpecialByte _ => Kind.specialByte
  | .reqEvValidDataByte _ => Kind.validDataByte
  | .reqEvMinLatency _ => Kind.minLatency
  | .reqEvDataLatency _ => Kind.dataLatency
  | .reqEvCharLatency _ => Kind.charLatency
  | .reqEvFlowControl _ => Kind.flowControl
  | .reqEvLineBreak _ => Kind.lineBreak
  | .reqEvRxqSize _ => Kind.rxqSize
  | .reqEvTxqSize _ => Kind.txqSize
  | .reqEvRxqHighWater _ => Kind.rxqHighWater
  | .reqEvRxqLowWater _ => Kind.rxqLowWater
  | .reqEvTxqHighWater _ => Kind.txqHighWater
  | .reqEvTxqLowWater _ => Kind.txqLowWater

/-- The operand `A` of an instruction: its own, the length of its payload, or zero. -/
def Instr.a : Instr → Word
  | .rbInit _ _ a => a
  | .rbPush _ _ a => a
  | .rbPop _ _ => 0#32
  | .rbPushbulk _ _ bytes => BitVec.ofNat 32 bytes.length
  | .rbPopbulk _ _ a => a
  | .rbFree _ _ => 0#32
  | .rbUsed _ _ => 0#32
  | .rbCap _ _ => 0#32
  | .rbStatus _ _ => 0#32
  | .rbBegindr _ _ a => a
  | .rbEnddr _ _ a => a
  | .rbClose _ _ => 0#32
  | .acquire _ _ => 0#32
  | .release _ => 0#32
  | .lreset _ => 0#32
  | .setstate _ a _ => a
  | .getstate _ => 0#32
  | .watchstate _ a _ => a
  | .cancelwait _ => 0#32
  | .terminate _ => 0#32
  | .snapshot _ => 0#32
  | .enqRx _ bytes => BitVec.ofNat 32 bytes.length
  | .deqRx _ a _ => a
  | .enqTx _ bytes => BitVec.ofNat 32 bytes.length
  | .execEvActive _ a => a
  | .execEvDataRate _ a => a
  | .execEvDataSize _ a => a
  | .execEvStopBits _ a => a
  | .execEvTxParity _ a => a
  | .execEvRxParity _ a => a
  | .execEvXonByte _ a => a
  | .execEvXoffByte _ a => a
  | .execEvSpecialByte _ a => a
  | .execEvValidDataByte _ a => a
  | .execEvMinLatency _ a => a
  | .execEvDataLatency _ a => a
  | .execEvCharLatency _ a => a
  | .execEvFlowControl _ a => a
  | .execEvLineBreak _ a => a
  | .execEvRxqSize _ a => a
  | .execEvTxqSize _ a => a
  | .execEvRxqHighWater _ a => a
  | .execEvRxqLowWater _ a => a
  | .execEvTxqHighWater _ a => a
  | .execEvTxqLowWater _ a => a
  | .reqEvActive _ => 0#32
  | .reqEvDataRate _ => 0#32
  | .reqEvDataSize _ => 0#32
  | .reqEvStopBits _ => 0#32
  | .reqEvTxParity _ => 0#32
  | .reqEvRxParity _ => 0#32
  | .reqEvXonByte _ => 0#32
  | .reqEvXoffByte _ => 0#32
  | .reqEvSpecialByte _ => 0#32
  | .reqEvValidDataByte _ => 0#32
  | .reqEvMinLatency _ => 0#32
  | .reqEvDataLatency _ => 0#32
  | .reqEvCharLatency _ => 0#32
  | .reqEvFlowControl _ => 0#32
  | .reqEvLineBreak _ => 0#32
  | .reqEvRxqSize _ => 0#32
  | .reqEvTxqSize _ => 0#32
  | .reqEvRxqHighWater _ => 0#32
  | .reqEvRxqLowWater _ => 0#32
  | .reqEvTxqHighWater _ => 0#32
  | .reqEvTxqLowWater _ => 0#32

/-- The operand `B` of an instruction: only SETSTATE, WATCHSTATE and DEQ_RX name one (R96). -/
def Instr.b : Instr → Word
  | .setstate _ _ b => b
  | .watchstate _ _ b => b
  | .deqRx _ _ b => b
  | _ => 0#32

/-- The payload of an instruction (R92). -/
def Instr.payload : Instr → List Byte
  | .rbPushbulk _ _ bytes => bytes
  | .enqRx _ bytes => bytes
  | .enqTx _ bytes => bytes
  | _ => []

/-- The command that carries an instruction, an operand its rule does not name being zero. -/
def encode (i : Instr) : Command :=
  { frame := mkFrame i.opc i.sel i.tag i.a i.b, payload := i.payload }

/-! ### The table's numbering of bits -/

/-- The command whose frame has the `nbits` bits `w` (bit 0 the least significant, as the table and R8 number them) and
zeros above, followed by the payload of zeros that the frame announces. The frame is stored as the record it is: R103
lets a model ignore the serial order of a frame. -/
def commandOfWord (nbits w : Nat) : Command :=
  let f := BitVec.ofNat 96 (w % 2 ^ nbits)
  { frame := f, payload := List.replicate (payloadLength f) 0x00#8 }

/-- What the decoder reads from a word of spec/opcode_table.json. -/
def decodeTableWord (nbits w : Nat) : Option Instr :=
  match decode (commandOfWord nbits w).frame (commandOfWord nbits w).payload with
  | .ok i => some i
  | .error _ => none

end Sys2Proof
end

