-- ==== Sys2Proof/Machine/Bank.lean ====
section
/-! DEFINITION. The link-parameter bank and the watermark registers (10_state.md R28, R36 to R44). -/

namespace Sys2Proof.Machine

/-- The link-parameter bank (R36). -/
structure LinkBank where
  /-- `BaudRate`, bits per second (R37) -/
  baudRate : Word
  /-- `CharLength`, bits (R37) -/
  charLength : Byte
  /-- `StopBits`, half bits (R37, R38) -/
  stopBits : Byte
  /-- `TxParity`, code of R39 -/
  txParity : Byte
  /-- `RxParity`, code of R39 -/
  rxParity : Byte
  /-- `XonByte` (R40) -/
  xonByte : Byte
  /-- `XoffByte` (R40) -/
  xoffByte : Byte
  /-- `SpecialChars`: bit `c` is the entry of byte value `c`, so that group `g` is bits `8 g + 7 … 8 g` (R41) -/
  specialChars : BitVec 256
  /-- `MinLatency` (R42) -/
  minLatency : Bool
  /-- `DataLatency`, uninterpreted (R42) -/
  dataLatency : Word
  /-- `CharLatency`, uninterpreted (R42) -/
  charLatency : Word
  /-- `FlowControlMode` (R43) -/
  flowControlMode : Word
  /-- `FlowRuntime`: 1 continuing, 2 paused (R44) -/
  flowRuntime : Byte
  /-- `RxProto`: 0 idle to 4 sent-XON (R44) -/
  rxProto : Byte
  /-- `TxProto`: 0 idle to 4 sent-XON (R44) -/
  txProto : Byte
  deriving DecidableEq, Repr

/-- What `LinkDefaults()` writes: every register of the bank at its default (R36 to R44). -/
def LinkBank.defaults : LinkBank :=
  { baudRate := 9600#32, charLength := 8#8, stopBits := 2#8, txParity := 1#8, rxParity := 0#8,
    xonByte := 0x11#8, xoffByte := 0x13#8, specialChars := 0#256, minLatency := false,
    dataLatency := 0#32, charLatency := 0#32, flowControlMode := 0#32, flowRuntime := 1#8,
    rxProto := 0#8, txProto := 0#8 }

/-- The entry of one byte value set (R199). -/
def LinkBank.markSpecial (k : LinkBank) (c : Byte) : LinkBank :=
  { k with specialChars := k.specialChars ||| (1#256 <<< c.toNat) }

/-- The entry of one byte value cleared (R200). -/
def LinkBank.markValid (k : LinkBank) (c : Byte) : LinkBank :=
  { k with specialChars := k.specialChars &&& ~~~(1#256 <<< c.toNat) }

/-- The watermark registers of one direction (R28). -/
structure Watermarks where
  bufferSize : Nat
  highWater : Nat
  lowWater : Nat
  deriving DecidableEq, Repr

/-- The watermark registers after reset (R28, R47). -/
def Watermarks.zero : Watermarks := { bufferSize := 0, highWater := 0, lowWater := 0 }

/-- `HighWater` of a capacity: two thirds, rounded down (R28). -/
def highWaterOf (depth : Nat) : Nat := 2 * depth / 3

/-- `LowWater`: half of `HighWater`, rounded down (R28). -/
def lowWaterOf (depth : Nat) : Nat := highWaterOf depth / 2

/-- The watermark registers an acquisition writes (R28, R153). -/
def Watermarks.ofDepth (depth : Nat) : Watermarks :=
  { bufferSize := depth, highWater := highWaterOf depth, lowWater := lowWaterOf depth }

end Sys2Proof.Machine
end

