-- ==== Sys2Proof/Machine/Memory.lean ====
section
/-! DEFINITION. Ring storage: the bytes of one direction, as a list of (index, byte) pairs in one canonical form
(10_state.md R22, 20_memory.md R60). -/

namespace Sys2Proof.Machine

/-- The storage of one ring buffer: indices strictly rising, no entry equal to what an unlisted index reads as. -/
abbrev Memory := List Host.Cell

/-- What an index that the list does not hold reads as. DESIGN CHOICE, log entry 2: the spec leaves the storage bytes
after reset unspecified, and "a model may give them any value" (R322). -/
def Memory.blank : Byte := 0x00#8

/-- The byte stored at an index. -/
def Memory.read : Memory → Nat → Byte
  | [], _ => Memory.blank
  | (k, v) :: m, i => if k = i then v else Memory.read m i

/-- The storage with a byte put at an index. Writing the blank byte removes the entry. -/
def Memory.write : Memory → Nat → Byte → Memory
  | [], i, x => if x = Memory.blank then [] else [(i, x)]
  | (k, v) :: m, i, x =>
    if i < k then (if x = Memory.blank then (k, v) :: m else (i, x) :: (k, v) :: m)
    else if i = k then (if x = Memory.blank then m else (i, x) :: m)
    else (k, v) :: Memory.write m i x

/-- Every listed index is at least `lo`, the indices rise strictly, and no listed byte is blank. -/
def Memory.wfFrom : Nat → Memory → Bool
  | _, [] => true
  | lo, (k, v) :: m => decide (lo ≤ k) && decide (v ≠ Memory.blank) && Memory.wfFrom (k + 1) m

/-- The canonical form. -/
def Memory.wf (m : Memory) : Bool := Memory.wfFrom 0 m

end Sys2Proof.Machine
end

