-- ==== Sys2Proof/Machine/RingBuffer.lean ====
section
/-! DEFINITION. One ring buffer: its registers (10_state.md R22, R23) and the operations on it that the commands of
40_ringbuffer.md and the copy steps of 44_transfer_watermark.md share. -/

namespace Sys2Proof.Machine

/-- The ring buffer of one direction (R22, R23). The registers are integers: R23 gives ranges and no widths
(DEDUCED, log entry 13). -/
structure RingBuffer where
  /-- storage -/
  mem : Memory
  /-- `Size`, capacity in bytes, 0 only while the buffer is closed -/
  size : Nat
  /-- `LastChar`, the read cursor: index of the oldest buffered byte -/
  lastChar : Nat
  /-- `NextChar`, the write cursor -/
  nextChar : Nat
  /-- `InQueue`, number of buffered bytes -/
  inQueue : Nat
  /-- `Valid` -/
  valid : Bool
  /-- `Exposed`, bytes exposed by the last RB_BEGINDR and not yet ended -/
  exposed : Nat
  deriving DecidableEq, Repr

/-- A closed buffer over given storage: every bookkeeping register is zero (R27, R132). -/
def RingBuffer.closedOver (m : Memory) : RingBuffer :=
  { mem := m, size := 0, lastChar := 0, nextChar := 0, inQueue := 0, valid := false, exposed := 0 }

/-- `free`, the bytes that still fit (R16). -/
def RingBuffer.free (b : RingBuffer) : Nat := b.size - b.inQueue

/-- A cursor moved on by one, wrapping at `Size` (R24). -/
def RingBuffer.advance (b : RingBuffer) (c : Nat) : Nat := if c + 1 = b.size then 0 else c + 1

/-- `MemRead` (00_scope.md R10): defined only for an index below `Size`. -/
def RingBuffer.memRead (b : RingBuffer) (i : Nat) : Option Byte :=
  if i < b.size then some (b.mem.read i) else none

/-- `MemWrite` (R10): defined only for an index below `Size`. -/
def RingBuffer.memWrite (b : RingBuffer) (i : Nat) (x : Byte) : Option RingBuffer :=
  if i < b.size then some { b with mem := b.mem.write i x } else none

/-- One byte written at the write cursor, the cursor advanced, the count raised (R122). -/
def RingBuffer.pushByte (b : RingBuffer) (x : Byte) : Option RingBuffer :=
  match b.memWrite b.nextChar x with
  | some c => some { c with nextChar := b.advance b.nextChar, inQueue := b.inQueue + 1 }
  | none => none

/-- Bytes written one after the other, front first (R124). -/
def RingBuffer.pushBytes (b : RingBuffer) : List Byte → Option RingBuffer
  | [] => some b
  | x :: xs =>
    match b.pushByte x with
    | some c => c.pushBytes xs
    | none => none

/-- One byte read at the read cursor, the cursor advanced, the count lowered (R123), `Exposed` left as it is. -/
def RingBuffer.popByte (b : RingBuffer) : Option (Byte × RingBuffer) :=
  match b.memRead b.lastChar with
  | some x => some (x, { b with lastChar := b.advance b.lastChar, inQueue := b.inQueue - 1 })
  | none => none

/-- `n` bytes read one after the other, oldest first (R125). -/
def RingBuffer.popBytes (b : RingBuffer) : Nat → Option (List Byte × RingBuffer)
  | 0 => some ([], b)
  | n + 1 =>
    match b.popByte with
    | some (x, c) =>
      match c.popBytes n with
      | some (xs, e) => some (x :: xs, e)
      | none => none
    | none => none

/-- RB_INIT's effect (R121). -/
def RingBuffer.openAt (b : RingBuffer) (capacity : Nat) : RingBuffer :=
  { b with size := capacity, lastChar := 0, nextChar := 0, inQueue := 0, exposed := 0, valid := true }

/-- RB_CLOSE's effect (R132): the storage bytes keep their values. -/
def RingBuffer.close (b : RingBuffer) : RingBuffer := RingBuffer.closedOver b.mem

/-- LRESET's effect on one buffer (R156): emptied, `Size` and `Valid` kept. -/
def RingBuffer.clear (b : RingBuffer) : RingBuffer :=
  { b with lastChar := 0, nextChar := 0, inQueue := 0, exposed := 0 }

/-- RB_PUSH on a buffer with room (R122). -/
def RingBuffer.push (b : RingBuffer) (x : Byte) : Option RingBuffer := b.pushByte x

/-- RB_POP on a buffer that is not empty (R123): it also ends a direct-read exposure. -/
def RingBuffer.pop (b : RingBuffer) : Option (Byte × RingBuffer) :=
  match b.popByte with
  | some (x, c) => some (x, { c with exposed := 0 })
  | none => none

/-- RB_PUSHBULK and ENQ_RX's copy (R124, R263): the bytes that fit, from the front, and how many they are. -/
def RingBuffer.pushBulk (b : RingBuffer) (bytes : List Byte) : Option (Nat × RingBuffer) :=
  match b.pushBytes (bytes.take b.free) with
  | some c => some (min bytes.length b.free, c)
  | none => none

/-- RB_POPBULK and DEQ_RX's copy (R125, R266): up to `maxBytes` bytes, ending an exposure if any byte moved. -/
def RingBuffer.popBulk (b : RingBuffer) (maxBytes : Nat) : Option (List Byte × RingBuffer) :=
  let n := min maxBytes b.inQueue
  match b.popBytes n with
  | some (out, c) => some (out, if 0 < n then { c with exposed := 0 } else c)
  | none => none

/-- RB_STATUS's answer code: 1 Empty, 2 Full, 0 Ok, `InQueue = 0` tested first (R129). -/
def RingBuffer.statusCode (b : RingBuffer) : Word :=
  if b.inQueue = 0 then 1#32 else if b.inQueue = b.size then 2#32 else 0#32

/-- How many bytes a direct read wants: at most what is asked for and what is buffered (R130). -/
def RingBuffer.want (b : RingBuffer) (maxSize : Nat) : Nat := min maxSize b.inQueue

/-- The distance from the read cursor to the end of storage (R130). -/
def RingBuffer.toEnd (b : RingBuffer) : Nat := b.size - b.lastChar

/-- The length of a direct-read window: never past the end of storage (R130). -/
def RingBuffer.windowLength (b : RingBuffer) (maxSize : Nat) : Nat :=
  if b.toEnd < b.want maxSize then b.toEnd else b.want maxSize

/-- `WRAPPED`: the window stopped at the end of storage and not at the size asked for (R130). -/
def RingBuffer.windowWrapped (b : RingBuffer) (maxSize : Nat) : Bool := decide (b.toEnd < b.want maxSize)

/-- The bytes at `n` indices from `i` up (R130). -/
def RingBuffer.readRun (b : RingBuffer) (i : Nat) : Nat → Option (List Byte)
  | 0 => some []
  | n + 1 =>
    match b.memRead i with
    | some x =>
      match b.readRun (i + 1) n with
      | some xs => some (x :: xs)
      | none => none
    | none => none

/-- RB_BEGINDR's effect: the window's bytes, and the buffer with them exposed (R130). -/
def RingBuffer.expose (b : RingBuffer) (maxSize : Nat) : Option (List Byte × RingBuffer) :=
  match b.readRun b.lastChar (b.windowLength maxSize) with
  | some bytes => some (bytes, { b with exposed := b.windowLength maxSize })
  | none => none

/-- A cursor moved on by `k`, wrapping at exactly `Size` (R24, R131). -/
def RingBuffer.advanceBy (b : RingBuffer) (c k : Nat) : Nat := if c + k = b.size then 0 else c + k

/-- RB_ENDDR's effect for a size within the exposure (R131). -/
def RingBuffer.consume (b : RingBuffer) (size : Nat) : RingBuffer :=
  if 0 < size then
    { b with lastChar := b.advanceBy b.lastChar size, inQueue := b.inQueue - size, exposed := 0 }
  else { b with exposed := 0 }

end Sys2Proof.Machine
end

