-- ==== Sys2Proof/Machine/State.lean ====
section
/-! DEFINITION. The state of one line, as plain data (10_state.md R20), and the machine right after reset (R47). -/

namespace Sys2Proof.Machine

/-- The `STATUS` of a response (60_exceptions.md R280). -/
inductive Status where
  /-- success -/
  | ok
  /-- "buffer capacity conditions": a push to a full buffer (R281) -/
  | queueFull
  /-- a pop from an empty buffer (R282) -/
  | queueEmpty
  /-- "invalid configuration value or malformed call" (R283) -/
  | badArgument
  /-- "operation requires acquisition first" (R284) -/
  | notOpen
  /-- "non-blocking acquire contended" (R285) -/
  | exclusiveAccess
  /-- "line is terminating/stopping" (R286) -/
  | offline
  /-- a parked wait aborted rather than satisfied (R287) -/
  | cancelled
  /-- a watch whose implicit wait for `ACTIVE` false ended it (R288) -/
  | ioError
  deriving DecidableEq, Repr

/-- A response and its output payload (30_encoding.md R93). "Omitted fields are zero or empty" (R11). -/
structure Response where
  status : Status := .ok
  opc : Byte
  tag : Tag
  wrapped : Bool := false
  d0 : Word := 0#32
  d1 : Word := 0#32
  bytes : List Byte := []
  deriving DecidableEq, Repr

/-- The twelve registers of the bank that a ConfigSnapshot carries (R95). -/
structure Snapshot where
  charLength : Byte
  stopBits : Byte
  txParity : Byte
  rxParity : Byte
  baudRate : Word
  minLatency : Bool
  xonByte : Byte
  xoffByte : Byte
  flowControlMode : Word
  flowRuntime : Byte
  rxProto : Byte
  txProto : Byte
  deriving DecidableEq, Repr

/-- A frame on port N (R95, R290, R291). -/
inductive Notification where
  /-- StateChanged with the whole new `State` -/
  | stateChanged (v : Word)
  /-- ConfigSnapshot -/
  | configSnapshot (c : Snapshot)
  deriving DecidableEq, Repr

/-- What a parked wait waits for (R45): a WATCHSTATE or a blocking ACQUIRE. -/
inductive WaitKind where
  | watch
  | acq
  deriving DecidableEq, Repr

/-- The record of one parked wait (R45). A slot that holds one is Busy. -/
structure Wait where
  kind : WaitKind
  target : Word
  mask : Word
  auto : Bool
  awake : Bool
  port : Port
  deriving DecidableEq, Repr

/-- The two operations that are transfers (R46). -/
inductive XferOp where
  | enqRx
  | deqRx
  deriving DecidableEq, Repr

/-- The operation, tag, operands and payload of a transfer in flight (R46). -/
structure XferJob where
  op : XferOp
  tag : Tag
  a : Word
  b : Word
  payload : List Byte
  deriving DecidableEq, Repr

/-- The transfer record of one port, by its phase (R46): after the copy it also holds the count and the bytes moved. -/
inductive Xfer where
  | idle
  | copy (job : XferJob)
  | fold (job : XferJob) (count : Nat) (moved : List Byte)
  deriving DecidableEq, Repr

/-- One act of an agent, as the scheduler or the environment chooses it (20_memory.md R65, R66). Model's own, log entry 4. -/
inductive Turn where
  /-- an initiator presents a command on a port -/
  | present (p : Port) (c : Command)
  /-- the port accepts the first command presented on it (R67) -/
  | accept (p : Port)
  /-- the re-test step of a watcher slot (41_linestate.md R166) -/
  | retest (w : Nat)
  /-- the next step of the transfer in flight on a port (R72) -/
  | transfer (p : Port)
  /-- hardware reset (70_reset_and_hazards.md R320) -/
  | reset
  deriving DecidableEq, Repr

/-- The machine's state: the complete state of one line (R20), and the model's own fields. -/
structure State where
  /-- the parameters (00_scope.md R5); no step writes them. Model's own, log entry 1 -/
  params : Params
  /-- `RB[RX]` -/
  rx : RingBuffer
  /-- `RB[TX]` -/
  tx : RingBuffer
  /-- `WM[RX]` -/
  wmRx : Watermarks
  /-- `WM[TX]` -/
  wmTx : Watermarks
  /-- the register `State` (R29) -/
  line : Word
  /-- `WatchMask` (R33) -/
  watchMask : Word
  /-- `Terminating` (R35) -/
  terminating : Bool
  /-- the link-parameter bank (R36) -/
  bank : LinkBank
  /-- `Slot[0] … Slot[NWATCH - 1]` (R45): `none` is a free slot -/
  slots : List (Option Wait)
  /-- `Xfer[H]` (R46) -/
  xferH : Xfer
  /-- `Xfer[W]` (R46) -/
  xferW : Xfer
  /-- the port whose command is being carried out. Model's own, log entry 9 -/
  issuer : Port
  /-- commands presented on port H and not yet accepted, first come first. Model's own, log entry 6 -/
  pendH : List Command
  /-- the same for port W -/
  pendW : List Command
  /-- the turns still to be taken, next first. Model's own, log entry 4 -/
  schedule : List Turn
  /-- responses sent on port H, oldest first. Model's own, log entry 10 -/
  outH : List Response
  /-- responses sent on port W, oldest first -/
  outW : List Response
  /-- frames sent on port N, oldest first -/
  outN : List Notification
  deriving DecidableEq, Repr

/-- Why the machine stops with a fault. The spec has no trap (R293); this is the one condition under which one of its
primitives is undefined. -/
inductive Fault where
  /-- An access to ring storage at an index that is not below `Size`, where `MemRead` and `MemWrite` are not defined
  (00_scope.md R10). Raised by the ring-buffer operations and the copy steps; no state that meets the buffer invariants
  R25 and R27 reaches it (20_memory.md R61). Safe: nothing can be proved of what would follow (log entry 14). -/
  | storageRange (d : Dir)
  deriving DecidableEq, Repr

/-- Why a step has no meaning. -/
inductive Refusal where
  /-- The instruction has no meaning in the model yet. Raised by `exec`'s arms alone. Safe. -/
  | notModelled (mnemonic : String)
  /-- The command presented carries a payload that is not of the length its frame announces (R92). Raised when a port
  would accept it; the spec's interface cannot present it. Safe: nothing can be proved of what would follow
  (log entry 8). -/
  | payloadLength
  deriving DecidableEq, Repr

/-- The machine right after hardware reset with given parameters (R47, R320). -/
def State.resetWith (p : Params) : State :=
  { params := p
    rx := RingBuffer.closedOver [], tx := RingBuffer.closedOver []
    wmRx := Watermarks.zero, wmTx := Watermarks.zero
    line := 0#32, watchMask := 0#32, terminating := false
    bank := LinkBank.defaults
    slots := List.replicate p.nwatch none
    xferH := .idle, xferW := .idle
    issuer := .H, pendH := [], pendW := [], schedule := [], outH := [], outW := [], outN := [] }

/-- The machine right after reset (R47), with the parameter values of log entry 1. -/
def State.reset : State := State.resetWith Params.sample

end Sys2Proof.Machine
end

