-- ==== Sys2Proof/Machine/Frames.lean ====
section
/-! DEFINITION. Response and notification frames as bits (30_encoding.md R93, R95; 60_exceptions.md R280). -/

namespace Sys2Proof.Machine

/-- The code of a status (R280). -/
def Status.code : Status → Byte
  | .ok => 0x00#8
  | .queueFull => 0x01#8
  | .queueEmpty => 0x02#8
  | .badArgument => 0x03#8
  | .notOpen => 0x04#8
  | .exclusiveAccess => 0x05#8
  | .offline => 0x06#8
  | .cancelled => 0x07#8
  | .ioError => 0x08#8

/-- Bits `[31:24]` of a response: `WRAPPED` in bit 24, zeros above (R93). -/
def Response.flags (r : Response) : Byte := if r.wrapped then 0x01#8 else 0x00#8

/-- The 96-bit response frame (R93). -/
def Response.frame (r : Response) : Frame :=
  r.d1 ++ r.d0 ++ r.flags ++ r.tag ++ r.opc ++ r.status.code

/-- The 64-bit StateChanged frame (R95). -/
def stateChangedFrame (v : Word) : BitVec 64 := v ++ 0x000000#24 ++ 0x01#8

/-- The five words of a ConfigSnapshot frame (R95). -/
def Snapshot.w0 (c : Snapshot) : Word := c.txParity ++ c.stopBits ++ c.charLength ++ 0x02#8
def Snapshot.w1 (c : Snapshot) : Word :=
  c.xoffByte ++ c.xonByte ++ (if c.minLatency then 0x01#8 else 0x00#8) ++ c.rxParity
def Snapshot.w2 (c : Snapshot) : Word := c.baudRate
def Snapshot.w3 (c : Snapshot) : Word := c.flowControlMode
def Snapshot.w4 (c : Snapshot) : Word := 0x00#8 ++ c.txProto ++ c.rxProto ++ c.flowRuntime

/-- The 160-bit ConfigSnapshot frame, `W0` least significant (R95). -/
def Snapshot.frame (c : Snapshot) : BitVec 160 := c.w4 ++ c.w3 ++ c.w2 ++ c.w1 ++ c.w0

/-- What a ConfigSnapshot carries of the bank (R95, R291). -/
def LinkBank.snapshot (k : LinkBank) : Snapshot :=
  { charLength := k.charLength, stopBits := k.stopBits, txParity := k.txParity, rxParity := k.rxParity,
    baudRate := k.baudRate, minLatency := k.minLatency, xonByte := k.xonByte, xoffByte := k.xoffByte,
    flowControlMode := k.flowControlMode, flowRuntime := k.flowRuntime, rxProto := k.rxProto, txProto := k.txProto }

end Sys2Proof.Machine
end

