-- ==== Sys2Proof/Machine/Flags.lean ====
section
/-! DEFINITION. The bits of `State`, the masks over it, and every computation of them (10_state.md R30, R31, R43;
41_linestate.md R150; 44_transfer_watermark.md R261). -/

namespace Sys2Proof.Machine

/-! ### The bits of `State` (R30) -/

namespace Bit
def acquired : Word := 0x80000000#32
def active : Word := 0x40000000#32
def txEnable : Word := 0x20000000#32
def txqEmpty : Word := 0x04000000#32
def txqLowWater : Word := 0x02000000#32
def txqHighWater : Word := 0x01000000#32
def txqFull : Word := 0x00800000#32
def rxEnable : Word := 0x00200000#32
def rxqEmpty : Word := 0x00040000#32
def rxqLowWater : Word := 0x00020000#32
def rxqHighWater : Word := 0x00010000#32
def rxqFull : Word := 0x00008000#32
/-- ready-for-receive -/
def rfr : Word := 0x00000010#32
/-- data-set-ready -/
def dsr : Word := 0x00000008#32
/-- clear-to-send -/
def cts : Word := 0x00000004#32
/-- line break -/
def brk : Word := 0x00000002#32
/-- loopback, internal only -/
def loop : Word := 0x00000001#32
end Bit

/-! ### Masks (R31, R43) -/

namespace Mask
/-- the seventeen named bits -/
def defined : Word := 0xE7A7801F#32
/-- `LOOP`, hidden from GETSTATE and from watch results -/
def internal : Word := 0x00000001#32
def visible : Word := defined &&& ~~~internal
/-- the eight queue bits, owned by the WatermarkEvaluator -/
def queue : Word := 0x07878000#32
def txq : Word := 0x07800000#32
def rxq : Word := 0x00078000#32
/-- what SETSTATE may write -/
def settable : Word := 0x2020001E#32
/-- the line signals that flow control can make read-only -/
def signalAuto : Word := 0x0000001C#32
/-- what ACQUIRE sets beside the queue bits -/
def defaultPattern : Word := 0xA0200000#32
/-- the bits EXEC EV_FLOW_CONTROL accepts (R43) -/
def flowLegal : Word := 0x001E001C#32
/-- all 32 bits -/
def all : Word := 0xFFFFFFFF#32
end Mask

/-- A bit of a word is set: `w & bit ≠ 0`. -/
abbrev hasBit (w bit : Word) : Prop := w &&& bit ≠ 0#32

/-- The state update formula: `(state & ~mask) | (newBits & mask)` (R150). -/
def mergeBits (old newBits mask : Word) : Word := (old &&& ~~~mask) ||| (newBits &&& mask)

/-- A bit if a condition holds, else nothing. -/
def bitIf (c : Prop) [Decidable c] (bit : Word) : Word := if c then bit else 0#32

/-- Full and Empty of one direction: `free = 0` is tested first (R261, R262 (b)). -/
def fullEmptyBits (b : RingBuffer) (full empty : Word) : Word :=
  if b.free = 0 then full else if b.inQueue = 0 then empty else 0#32

/-- The four queue bits of one direction (R261): both comparisons are strict, and there is no memory of earlier bits.
DEDUCED, unsafe (log entry 23): a closed buffer whose thresholds are not zero has `LOW` set, as the pseudocode of R261
computes (`0 < LowWater`), where R262 (b) says that a buffer of `Size = 0` reads with `LOW` clear. -/
def dirBits (b : RingBuffer) (wm : Watermarks) (full empty low high : Word) : Word :=
  fullEmptyBits b full empty ||| bitIf (b.inQueue < wm.lowWater) low ||| bitIf (wm.highWater < b.inQueue) high

/-- The queue bits of TX. -/
def txBits (b : RingBuffer) (wm : Watermarks) : Word :=
  dirBits b wm Bit.txqFull Bit.txqEmpty Bit.txqLowWater Bit.txqHighWater

/-- The queue bits of RX. -/
def rxBits (b : RingBuffer) (wm : Watermarks) : Word :=
  dirBits b wm Bit.rxqFull Bit.rxqEmpty Bit.rxqLowWater Bit.rxqHighWater

/-- `QueueBits()`: a function of the live counters and thresholds alone (R261). -/
def State.queueBits (s : State) : Word := txBits s.tx s.wmTx ||| rxBits s.rx s.wmRx

/-- What a response shows of `State`: internal bits hidden (R31, R160). -/
def State.visibleLine (s : State) : Word := s.line &&& Mask.visible

/-- The bits SETSTATE writes: its mask less the signals that flow control drives (R158). -/
def State.writableMask (s : State) (mask : Word) : Word := mask &&& ~~~(s.bank.flowControlMode &&& Mask.signalAuto)

/-- The bits a parked wait is interested in: its mask, and `ACTIVE` if it also ends when `ACTIVE` is false (R45). -/
def interestOf (mask : Word) (auto : Bool) : Word := mask ||| (if auto then Bit.active else 0#32)

/-- The interest of a parked wait (R45). -/
def Wait.interest (x : Wait) : Word := interestOf x.mask x.auto

/-- The three answers of a wait's test (R162). -/
inductive WatchResult where
  | ioError
  | satisfied
  | unsatisfied
  deriving DecidableEq, Repr

/-- `WatchTest` (R162): the implicit wait for `ACTIVE` false comes first, then equality of every masked bit. -/
def watchTest (line target mask : Word) (auto : Bool) : WatchResult :=
  if auto = true ∧ ¬ hasBit line Bit.active then .ioError
  else if (line ^^^ target) &&& mask = 0#32 then .satisfied
  else .unsatisfied

end Sys2Proof.Machine
end

