-- ==== Sys2Proof/Machine/Operands.lean ====
section
/-! DEFINITION. The operand forms of the commands (30_encoding.md R91): direction, port, byte, flag, count, slot; and the
pieces of state they select. -/

namespace Sys2Proof.Machine

/-- `RB[d]` -/
def State.rb (s : State) : Dir → RingBuffer
  | .rx => s.rx
  | .tx => s.tx

/-- The state with `RB[d]` replaced. -/
def State.setRb (s : State) (d : Dir) (b : RingBuffer) : State :=
  match d with
  | .rx => { s with rx := b }
  | .tx => { s with tx := b }

/-- `WM[d]` -/
def State.wm (s : State) : Dir → Watermarks
  | .rx => s.wmRx
  | .tx => s.wmTx

/-- `DEPTH_d` (00_scope.md R5) -/
def State.depth (s : State) : Dir → Nat
  | .rx => s.params.depthRx
  | .tx => s.params.depthTx

/-- `Xfer[p]` -/
def State.xfer (s : State) : Port → Xfer
  | .H => s.xferH
  | .W => s.xferW

/-- The state with `Xfer[p]` replaced. -/
def State.setXfer (s : State) (p : Port) (x : Xfer) : State :=
  match p with
  | .H => { s with xferH := x }
  | .W => { s with xferW := x }

/-- The commands presented on a port and not yet accepted. -/
def State.pend (s : State) : Port → List Command
  | .H => s.pendH
  | .W => s.pendW

/-- The state with the commands presented on a port replaced. -/
def State.setPend (s : State) (p : Port) (cs : List Command) : State :=
  match p with
  | .H => { s with pendH := cs }
  | .W => { s with pendW := cs }

/-- The responses sent on a port so far. -/
def State.out (s : State) : Port → List Response
  | .H => s.outH
  | .W => s.outW

/-- `Slot[w]`, `none` where it is free or does not exist. -/
def State.slot (s : State) (w : Nat) : Option Wait := (s.slots[w]?).join

/-- The state with `Slot[w]` replaced. -/
def State.setSlot (s : State) (w : Nat) (x : Option Wait) : State := { s with slots := s.slots.set w x }

/-- `TAG < NWATCH` and the slot is not busy: a wait can park there (41_linestate.md R152, R163). -/
abbrev State.canPark (s : State) (tag : Tag) : Prop := tag.toNat < s.params.nwatch ∧ s.slot tag.toNat = none

/-- An operand that must be a byte: its upper 24 bits are zero (R91, R122, R197). -/
abbrev isByte (a : Word) : Prop := a ≤ 0xFF#32

/-- The byte of such an operand, `A[7:0]`. -/
def byteOf (a : Word) : Byte := a.setWidth 8

/-- A flag operand (R91): `A ≠ 0`. -/
def flagOf (a : Word) : Bool := decide (a ≠ 0#32)

/-- An 8-bit register as a result word. -/
def wordOfByte (x : Byte) : Word := x.setWidth 32

/-- A count or a size as a result word (R93). -/
def wordOfNat (n : Nat) : Word := BitVec.ofNat 32 n

end Sys2Proof.Machine
end

