-- ==== Sys2Proof/Machine/Ops.lean ====
section
/-! DEFINITION. The named operations that the commands share: answering and raising an error, notifying, the single
state-mutation path, waking, parking and completing waits, the WatermarkEvaluator and the acquisition. -/

namespace Sys2Proof.Machine

/-! ### Answers -/

/-- A response sent on a port. A response never waits (20_memory.md R67). -/
def State.send (s : State) (p : Port) (r : Response) : State :=
  match p with
  | .H => { s with outH := s.outH ++ [r] }
  | .W => { s with outW := s.outW ++ [r] }

/-- `respond` (00_scope.md R11): the response to the command being carried out, on the port that issued it. -/
def State.respond (s : State) (r : Response) : State := s.send s.issuer r

/-- `raise K` (R11, 60_exceptions.md R293), the engine's one way of taking an exception: the response carries the status
with data words zero, and nothing else happens. There is no handler, no saved context and so no return from it. -/
def State.raise (s : State) (k : Status) (opc : Byte) (tag : Tag) : State :=
  s.respond { status := k, opc := opc, tag := tag }

/-- `notify` (R12): one frame on port N. -/
def State.notify (s : State) (n : Notification) : State := { s with outN := s.outN ++ [n] }

/-! ### The single state-mutation path -/

/-- A wait marked awake. -/
def Wait.wake (x : Wait) : Wait := { x with awake := true }

/-- `WakeAll()` (41_linestate.md R151): the mask cleared, every busy slot awake. -/
def State.wakeAll (s : State) : State :=
  { s with watchMask := 0#32, slots := s.slots.map (Option.map Wait.wake) }

/-- The waiters woken if a changed bit is in `WatchMask` (R150). -/
def State.wakeIfWatched (s : State) (delta : Word) : State :=
  if delta &&& s.watchMask ≠ 0#32 then s.wakeAll else s

/-- The listener told of a new state word if it differs (R150, R290). -/
def State.notifyIfChanged (s : State) (delta : Word) : State :=
  if delta ≠ 0#32 then s.notify (.stateChanged s.line) else s

/-- `ChangeState(newBits, mask)`, the only procedure that writes `State` (R150). -/
def State.changeState (s : State) (newBits mask : Word) : State :=
  let new := mergeBits s.line newBits mask
  let delta := s.line ^^^ new
  ({ s with line := new }.wakeIfWatched delta).notifyIfChanged delta

/-- `Fold()`, one run of the WatermarkEvaluator (44_transfer_watermark.md R260). -/
def State.fold (s : State) : State := s.changeState s.queueBits Mask.queue

/-! ### Lifecycle -/

/-- `LinkDefaults()` (10_state.md R36). -/
def State.linkDefaults (s : State) : State := { s with bank := LinkBank.defaults }

/-- The part of `Acquisition()` before its change-state call (R153): the bank at its defaults, both buffers opened at
their depth and emptied, the thresholds recomputed. -/
def State.rebuild (s : State) : State :=
  { s with
    bank := LinkBank.defaults
    rx := s.rx.openAt s.params.depthRx
    tx := s.tx.openAt s.params.depthTx
    wmRx := Watermarks.ofDepth s.params.depthRx
    wmTx := Watermarks.ofDepth s.params.depthTx }

/-- `Acquisition()` (R153). -/
def State.acquisition (s : State) : State :=
  s.rebuild.changeState (Mask.defaultPattern ||| s.rebuild.queueBits) Mask.all

/-! ### Parked waits -/

/-- A wait parked in slot `tag`, blocked, its interest in `WatchMask` (R152, R163). No response is sent. -/
def State.park (s : State) (tag : Tag) (x : Wait) : State :=
  { s.setSlot tag.toNat (some x) with watchMask := s.watchMask ||| x.interest }

/-- The OPC of the command that parked (R94, R166). -/
def WaitKind.opc : WaitKind → Byte
  | .watch => Opc.watchstate
  | .acq => Opc.acquire

/-- `Complete(w, K, d0)` (R166): the slot freed, the parked command answered on its own port. -/
def State.complete (s : State) (w : Nat) (x : Wait) (k : Status) (d0 : Word) : State :=
  (s.setSlot w none).send x.port { status := k, opc := x.kind.opc, tag := BitVec.ofNat 8 w, d0 := d0 }

/-- A wait put back to sleep after a re-test that did not end it (R166). -/
def State.repark (s : State) (w : Nat) (x : Wait) : State :=
  { s.setSlot w (some { x with awake := false }) with watchMask := s.watchMask ||| x.interest }

/-- The re-test of a WATCHSTATE (R166). -/
def State.retestWatch (s : State) (w : Nat) (x : Wait) : State :=
  match watchTest s.line x.target x.mask x.auto with
  | .ioError => s.complete w x .ioError s.visibleLine
  | .satisfied => s.complete w x .ok s.visibleLine
  | .unsatisfied => s.repark w x

/-- The re-test of a blocking ACQUIRE (R166): the slot is freed before the acquisition runs. -/
def State.retestAcquire (s : State) (w : Nat) (x : Wait) : State :=
  if hasBit s.line Bit.acquired then s.repark w x
  else
    let t := (s.setSlot w none).acquisition
    t.send x.port { opc := Opc.acquire, tag := BitVec.ofNat 8 w, d0 := t.visibleLine }

/-- `Retest(w)` (R166), the step of a slot whose wait is awake. -/
def State.retest (s : State) (w : Nat) (x : Wait) : State :=
  match x.kind with
  | .watch => s.retestWatch w x
  | .acq => s.retestAcquire w x

/-- Every wait of a list of slots that starts at slot `w` completed Offline, in slot order (R170; the order is DEDUCED
from 96_test_vectors_derived.md W-4, log entry 20). -/
def State.completeOffline (s : State) : Nat → List (Option Wait) → State
  | _, [] => s
  | w, none :: xs => s.completeOffline (w + 1) xs
  | w, some x :: xs => (s.complete w x .offline 0#32).completeOffline (w + 1) xs

/-! ### Configuration events -/

/-- The shape of every EXEC of a kind that exists (42_events_execute.md R190). -/
def State.configEvent (s : State) (tag : Tag) (valid : Prop) [Decidable valid] (applied : State) : State :=
  if ¬ hasBit s.line Bit.acquired then s.raise .notOpen Opc.exec tag
  else if ¬ valid then s.raise .badArgument Opc.exec tag
  else (applied.notify (.configSnapshot applied.bank.snapshot)).respond { opc := Opc.exec, tag := tag }

/-- The state with the bank replaced: what most configuration events apply. -/
def State.setBank (s : State) (k : LinkBank) : State := { s with bank := k }

/-- The shape of every REQ of a readable kind (43_events_request.md R230). -/
def State.readBack (s : State) (tag : Tag) (value : Word) : State :=
  s.respond { opc := Opc.req, tag := tag, d0 := value }

end Sys2Proof.Machine
end

