-- ==== Sys2Proof/Machine/Events.lean ====
section
/-! DEFINITION. The meanings of the 21 kinds of EXEC (42_events_execute.md R190 to R211). -/

namespace Sys2Proof.Machine

/-- What EV_ACTIVE applies (R191): activating an inactive line restores the link defaults and sets `ACTIVE`, activating an
active line writes nothing, deactivating clears `ACTIVE` alone. -/
def State.setActive (s : State) (on : Bool) : State :=
  if on then
    if hasBit s.line Bit.active then s else s.linkDefaults.changeState Bit.active Bit.active
  else s.changeState 0#32 Bit.active

/-- EXEC EV_ACTIVE (R191). -/
def runExecEvActive (tag : Tag) (a : Word) (s : State) : Host.Outcome State Fault Refusal :=
  .next (s.configEvent tag True (s.setActive (flagOf a)))

/-- EXEC EV_DATA_RATE (R192). -/
def runExecEvDataRate (tag : Tag) (a : Word) (s : State) : Host.Outcome State Fault Refusal :=
  .next (s.configEvent tag (s.params.minBaud ≤ a.toNat ∧ a.toNat ≤ s.params.maxBaud) (s.setBank { s.bank with baudRate := a }))

/-- EXEC EV_DATA_SIZE (R193). -/
def runExecEvDataSize (tag : Tag) (a : Word) (s : State) : Host.Outcome State Fault Refusal :=
  .next (s.configEvent tag (5#32 ≤ a ∧ a ≤ 8#32) (s.setBank { s.bank with charLength := byteOf a }))

/-- EXEC EV_STOP_BITS (R194). -/
def runExecEvStopBits (tag : Tag) (a : Word) (s : State) : Host.Outcome State Fault Refusal :=
  .next (s.configEvent tag (a ≤ 20#32) (s.setBank { s.bank with stopBits := byteOf a }))

/-- EXEC EV_TX_PARITY (R195). -/
def runExecEvTxParity (tag : Tag) (a : Word) (s : State) : Host.Outcome State Fault Refusal :=
  .next (s.configEvent tag (1#32 ≤ a ∧ a ≤ 5#32) (s.setBank { s.bank with txParity := byteOf a }))

/-- EXEC EV_RX_PARITY (R196). -/
def runExecEvRxParity (tag : Tag) (a : Word) (s : State) : Host.Outcome State Fault Refusal :=
  .next (s.configEvent tag (a = 0#32 ∨ a = 6#32) (s.setBank { s.bank with rxParity := byteOf a }))

/-- EXEC EV_XON_BYTE (R197). -/
def runExecEvXonByte (tag : Tag) (a : Word) (s : State) : Host.Outcome State Fault Refusal :=
  .next (s.configEvent tag (isByte a) (s.setBank { s.bank with xonByte := byteOf a }))

/-- EXEC EV_XOFF_BYTE (R198). -/
def runExecEvXoffByte (tag : Tag) (a : Word) (s : State) : Host.Outcome State Fault Refusal :=
  .next (s.configEvent tag (isByte a) (s.setBank { s.bank with xoffByte := byteOf a }))

/-- EXEC EV_SPECIAL_BYTE (R199). -/
def runExecEvSpecialByte (tag : Tag) (a : Word) (s : State) : Host.Outcome State Fault Refusal :=
  .next (s.configEvent tag (isByte a) (s.setBank (s.bank.markSpecial (byteOf a))))

/-- EXEC EV_VALID_DATA_BYTE (R200). -/
def runExecEvValidDataByte (tag : Tag) (a : Word) (s : State) : Host.Outcome State Fault Refusal :=
  .next (s.configEvent tag (isByte a) (s.setBank (s.bank.markValid (byteOf a))))

/-- EXEC EV_MIN_LATENCY (R201). -/
def runExecEvMinLatency (tag : Tag) (a : Word) (s : State) : Host.Outcome State Fault Refusal :=
  .next (s.configEvent tag True (s.setBank { s.bank with minLatency := flagOf a }))

/-- EXEC EV_DATA_LATENCY (R202). -/
def runExecEvDataLatency (tag : Tag) (a : Word) (s : State) : Host.Outcome State Fault Refusal :=
  .next (s.configEvent tag True (s.setBank { s.bank with dataLatency := a }))

/-- EXEC EV_CHAR_LATENCY (R203). -/
def runExecEvCharLatency (tag : Tag) (a : Word) (s : State) : Host.Outcome State Fault Refusal :=
  .next (s.configEvent tag True (s.setBank { s.bank with charLatency := a }))

/-- EXEC EV_FLOW_CONTROL (R204). -/
def runExecEvFlowControl (tag : Tag) (a : Word) (s : State) : Host.Outcome State Fault Refusal :=
  .next (s.configEvent tag (a &&& ~~~Mask.flowLegal = 0#32) (s.setBank { s.bank with flowControlMode := a }))

/-- EXEC EV_LINE_BREAK (R205). -/
def runExecEvLineBreak (tag : Tag) (a : Word) (s : State) : Host.Outcome State Fault Refusal :=
  .next (s.configEvent tag True (s.changeState (if flagOf a then Bit.brk else 0#32) Bit.brk))

/-- EXEC EV_RXQ_SIZE (R206), accepted and a no-op: capacities and thresholds are fixed at acquire time. -/
def runExecEvRxqSize (tag : Tag) (_a : Word) (s : State) : Host.Outcome State Fault Refusal :=
  .next (s.configEvent tag True s)

/-- EXEC EV_TXQ_SIZE (R207), accepted and a no-op: capacities and thresholds are fixed at acquire time. -/
def runExecEvTxqSize (tag : Tag) (_a : Word) (s : State) : Host.Outcome State Fault Refusal :=
  .next (s.configEvent tag True s)

/-- EXEC EV_RXQ_HIGH_WATER (R208), accepted and a no-op: capacities and thresholds are fixed at acquire time. -/
def runExecEvRxqHighWater (tag : Tag) (_a : Word) (s : State) : Host.Outcome State Fault Refusal :=
  .next (s.configEvent tag True s)

/-- EXEC EV_RXQ_LOW_WATER (R209), accepted and a no-op: capacities and thresholds are fixed at acquire time. -/
def runExecEvRxqLowWater (tag : Tag) (_a : Word) (s : State) : Host.Outcome State Fault Refusal :=
  .next (s.configEvent tag True s)

/-- EXEC EV_TXQ_HIGH_WATER (R210), accepted and a no-op: capacities and thresholds are fixed at acquire time. -/
def runExecEvTxqHighWater (tag : Tag) (_a : Word) (s : State) : Host.Outcome State Fault Refusal :=
  .next (s.configEvent tag True s)

/-- EXEC EV_TXQ_LOW_WATER (R211), accepted and a no-op: capacities and thresholds are fixed at acquire time. -/
def runExecEvTxqLowWater (tag : Tag) (_a : Word) (s : State) : Host.Outcome State Fault Refusal :=
  .next (s.configEvent tag True s)

end Sys2Proof.Machine
end

