-- ==== Sys2Proof/Machine/Line.lean ====
section
/-! DEFINITION. The meanings of the line-state operations (41_linestate.md R152 to R172). -/

namespace Sys2Proof.Machine

/-- ACQUIRE (R152). -/
def runAcquire (blocking : Bool) (tag : Tag) (s : State) : Host.Outcome State Fault Refusal :=
  if s.terminating = true then .next (s.raise .offline Opc.acquire tag)
  else if ¬ hasBit s.line Bit.acquired then
    .next (s.acquisition.respond { opc := Opc.acquire, tag := tag, d0 := s.acquisition.visibleLine })
  else if blocking = false then .next (s.raise .exclusiveAccess Opc.acquire tag)
  else if ¬ s.canPark tag then .next (s.raise .badArgument Opc.acquire tag)
  else .next (s.park tag
    { kind := .acq, target := 0#32, mask := Bit.acquired, auto := false, awake := false, port := s.issuer })

/-- RELEASE (R155): it clears `State` and nothing else (R321); R271 does not hold of what it leaves (log entry 17). -/
def runRelease (tag : Tag) (s : State) : Host.Outcome State Fault Refusal :=
  if s.terminating = true then .next (s.raise .offline Opc.release tag)
  else if ¬ hasBit s.line Bit.acquired then .next (s.raise .notOpen Opc.release tag)
  else .next ((s.changeState 0#32 Mask.all).respond { opc := Opc.release, tag := tag })

/-- LRESET (R156). -/
def runLreset (tag : Tag) (s : State) : Host.Outcome State Fault Refusal :=
  .next (({ s with rx := s.rx.clear, tx := s.tx.clear } : State).fold.respond { opc := Opc.lreset, tag := tag })

/-- SETSTATE (R158): only the mask is checked, bits that flow control drives are dropped from it silently. -/
def runSetstate (tag : Tag) (a b : Word) (s : State) : Host.Outcome State Fault Refusal :=
  if b &&& (Bit.acquired ||| Bit.active ||| ~~~Mask.settable) ≠ 0#32 then
    .next (s.raise .badArgument Opc.setstate tag)
  else if ¬ hasBit s.line Bit.acquired then .next (s.raise .notOpen Opc.setstate tag)
  else .next ((s.changeState a (s.writableMask b)).respond { opc := Opc.setstate, tag := tag })

/-- GETSTATE (R160): a read with a side effect, it folds. -/
def runGetstate (tag : Tag) (s : State) : Host.Outcome State Fault Refusal :=
  .next (s.fold.respond { opc := Opc.getstate, tag := tag, d0 := s.fold.visibleLine })

/-- A WATCHSTATE whose mask lacks `ACTIVE` also ends when `ACTIVE` is false (R162, R163). -/
def autoOf (mask : Word) : Bool := decide (mask &&& Bit.active = 0#32)

/-- WATCHSTATE (R163): the slot is looked at only when the command must park. -/
def runWatchstate (tag : Tag) (a b : Word) (s : State) : Host.Outcome State Fault Refusal :=
  if s.terminating = true then .next (s.raise .offline Opc.watchstate tag)
  else if ¬ hasBit s.line Bit.acquired then .next (s.raise .notOpen Opc.watchstate tag)
  else match watchTest s.line a b (autoOf b) with
    | .ioError => .next (s.respond { status := .ioError, opc := Opc.watchstate, tag := tag, d0 := s.visibleLine })
    | .satisfied => .next (s.respond { opc := Opc.watchstate, tag := tag, d0 := s.visibleLine })
    | .unsatisfied =>
      if ¬ s.canPark tag then .next (s.raise .badArgument Opc.watchstate tag)
      else .next (s.park tag
        { kind := .watch, target := a, mask := b, auto := autoOf b, awake := false, port := s.issuer })

/-- CANCELWAIT (R168): the parked command's own response comes first, then everyone else is woken, then the answer. -/
def runCancelwait (tag : Tag) (s : State) : Host.Outcome State Fault Refusal :=
  if ¬ tag.toNat < s.params.nwatch then .next (s.raise .badArgument Opc.cancelwait tag)
  else match s.slot tag.toNat with
    | none => .next (s.raise .badArgument Opc.cancelwait tag)
    | some x =>
      .next ((s.complete tag.toNat x .cancelled 0#32).wakeAll.respond { opc := Opc.cancelwait, tag := tag })

/-- TERMINATE (R170). -/
def runTerminate (tag : Tag) (s : State) : Host.Outcome State Fault Refusal :=
  .next ({ ({ s with terminating := true } : State).completeOffline 0 s.slots with watchMask := 0#32 }.respond
    { opc := Opc.terminate, tag := tag })

/-- SNAPSHOT (R172). -/
def runSnapshot (tag : Tag) (s : State) : Host.Outcome State Fault Refusal :=
  .next ((s.notify (.configSnapshot s.bank.snapshot)).respond { opc := Opc.snapshot, tag := tag })

end Sys2Proof.Machine
end

