-- ==== Sys2Proof/Machine/Requests.lean ====
section
/-! DEFINITION. The meanings of the 21 kinds of REQ (43_events_request.md R230 to R251). A pure read: nothing is written
but the response, and nothing is folded. -/

namespace Sys2Proof.Machine

/-- REQ EV_ACTIVE (R231). -/
def runReqEvActive (tag : Tag) (s : State) : Host.Outcome State Fault Refusal :=
  .next (s.readBack tag (boolWord (decide (hasBit s.line Bit.active))))

/-- REQ EV_DATA_RATE (R232). -/
def runReqEvDataRate (tag : Tag) (s : State) : Host.Outcome State Fault Refusal :=
  .next (s.readBack tag s.bank.baudRate)

/-- REQ EV_DATA_SIZE (R233). -/
def runReqEvDataSize (tag : Tag) (s : State) : Host.Outcome State Fault Refusal :=
  .next (s.readBack tag (wordOfByte s.bank.charLength))

/-- REQ EV_STOP_BITS (R234). -/
def runReqEvStopBits (tag : Tag) (s : State) : Host.Outcome State Fault Refusal :=
  .next (s.readBack tag (wordOfByte s.bank.stopBits))

/-- REQ EV_TX_PARITY (R235). -/
def runReqEvTxParity (tag : Tag) (s : State) : Host.Outcome State Fault Refusal :=
  .next (s.readBack tag (wordOfByte s.bank.txParity))

/-- REQ EV_RX_PARITY (R236). -/
def runReqEvRxParity (tag : Tag) (s : State) : Host.Outcome State Fault Refusal :=
  .next (s.readBack tag (wordOfByte s.bank.rxParity))

/-- REQ EV_XON_BYTE (R237). -/
def runReqEvXonByte (tag : Tag) (s : State) : Host.Outcome State Fault Refusal :=
  .next (s.readBack tag (wordOfByte s.bank.xonByte))

/-- REQ EV_XOFF_BYTE (R238). -/
def runReqEvXoffByte (tag : Tag) (s : State) : Host.Outcome State Fault Refusal :=
  .next (s.readBack tag (wordOfByte s.bank.xoffByte))

/-- REQ EV_SPECIAL_BYTE (R239): the special-character table has no read-back, the answer is BadArgument with `D0 = 0`. -/
def runReqEvSpecialByte (tag : Tag) (s : State) : Host.Outcome State Fault Refusal :=
  .next (s.raise .badArgument Opc.req tag)

/-- REQ EV_VALID_DATA_BYTE (R240): the special-character table has no read-back, the answer is BadArgument with `D0 = 0`. -/
def runReqEvValidDataByte (tag : Tag) (s : State) : Host.Outcome State Fault Refusal :=
  .next (s.raise .badArgument Opc.req tag)

/-- REQ EV_MIN_LATENCY (R241). -/
def runReqEvMinLatency (tag : Tag) (s : State) : Host.Outcome State Fault Refusal :=
  .next (s.readBack tag (boolWord s.bank.minLatency))

/-- REQ EV_DATA_LATENCY (R242). -/
def runReqEvDataLatency (tag : Tag) (s : State) : Host.Outcome State Fault Refusal :=
  .next (s.readBack tag s.bank.dataLatency)

/-- REQ EV_CHAR_LATENCY (R243). -/
def runReqEvCharLatency (tag : Tag) (s : State) : Host.Outcome State Fault Refusal :=
  .next (s.readBack tag s.bank.charLatency)

/-- REQ EV_FLOW_CONTROL (R244). -/
def runReqEvFlowControl (tag : Tag) (s : State) : Host.Outcome State Fault Refusal :=
  .next (s.readBack tag s.bank.flowControlMode)

/-- REQ EV_LINE_BREAK (R245). -/
def runReqEvLineBreak (tag : Tag) (s : State) : Host.Outcome State Fault Refusal :=
  .next (s.readBack tag (boolWord (decide (hasBit s.line Bit.brk))))

/-- REQ EV_RXQ_SIZE (R246). -/
def runReqEvRxqSize (tag : Tag) (s : State) : Host.Outcome State Fault Refusal :=
  .next (s.readBack tag (wordOfNat s.wmRx.bufferSize))

/-- REQ EV_TXQ_SIZE (R247). -/
def runReqEvTxqSize (tag : Tag) (s : State) : Host.Outcome State Fault Refusal :=
  .next (s.readBack tag (wordOfNat s.wmTx.bufferSize))

/-- REQ EV_RXQ_HIGH_WATER (R248). -/
def runReqEvRxqHighWater (tag : Tag) (s : State) : Host.Outcome State Fault Refusal :=
  .next (s.readBack tag (wordOfNat s.wmRx.highWater))

/-- REQ EV_RXQ_LOW_WATER (R249). -/
def runReqEvRxqLowWater (tag : Tag) (s : State) : Host.Outcome State Fault Refusal :=
  .next (s.readBack tag (wordOfNat s.wmRx.lowWater))

/-- REQ EV_TXQ_HIGH_WATER (R250). -/
def runReqEvTxqHighWater (tag : Tag) (s : State) : Host.Outcome State Fault Refusal :=
  .next (s.readBack tag (wordOfNat s.wmTx.highWater))

/-- REQ EV_TXQ_LOW_WATER (R251). -/
def runReqEvTxqLowWater (tag : Tag) (s : State) : Host.Outcome State Fault Refusal :=
  .next (s.readBack tag (wordOfNat s.wmTx.lowWater))

end Sys2Proof.Machine
end

