-- ==== Sys2Proof/Machine/Ring.lean ====
section
/-! DEFINITION. The meanings of the twelve ring-buffer operations (40_ringbuffer.md R120 to R132). Each touches `RB[d]`
and nothing else, and answers in the same step (R120). -/

namespace Sys2Proof.Machine

/-- RB_INIT (R121). -/
def runRbInit (d : Dir) (tag : Tag) (a : Word) (s : State) : Host.Outcome State Fault Refusal :=
  if a = 0#32 ∨ s.depth d < a.toNat then .next (s.raise .badArgument Opc.rbInit tag)
  else .next ((s.setRb d ((s.rb d).openAt a.toNat)).respond { opc := Opc.rbInit, tag := tag, d0 := a })

/-- RB_PUSH (R122). -/
def runRbPush (d : Dir) (tag : Tag) (a : Word) (s : State) : Host.Outcome State Fault Refusal :=
  if ¬ isByte a then .next (s.raise .badArgument Opc.rbPush tag)
  else if (s.rb d).inQueue = (s.rb d).size then .next (s.raise .queueFull Opc.rbPush tag)
  else match (s.rb d).push (byteOf a) with
    | some b => .next ((s.setRb d b).respond { opc := Opc.rbPush, tag := tag })
    | none => .fault (.storageRange d)

/-- RB_POP (R123). -/
def runRbPop (d : Dir) (tag : Tag) (s : State) : Host.Outcome State Fault Refusal :=
  if (s.rb d).inQueue = 0 then .next (s.raise .queueEmpty Opc.rbPop tag)
  else match (s.rb d).pop with
    | some (x, b) => .next ((s.setRb d b).respond { opc := Opc.rbPop, tag := tag, d0 := wordOfByte x })
    | none => .fault (.storageRange d)

/-- RB_PUSHBULK (R124). -/
def runRbPushbulk (d : Dir) (tag : Tag) (bytes : List Byte) (s : State) : Host.Outcome State Fault Refusal :=
  match (s.rb d).pushBulk bytes with
  | some (n, b) => .next ((s.setRb d b).respond { opc := Opc.rbPushbulk, tag := tag, d0 := wordOfNat n })
  | none => .fault (.storageRange d)

/-- RB_POPBULK (R125). -/
def runRbPopbulk (d : Dir) (tag : Tag) (a : Word) (s : State) : Host.Outcome State Fault Refusal :=
  match (s.rb d).popBulk a.toNat with
  | some (out, b) =>
    .next ((s.setRb d b).respond { opc := Opc.rbPopbulk, tag := tag, d0 := wordOfNat out.length, bytes := out })
  | none => .fault (.storageRange d)

/-- RB_FREE (R126). -/
def runRbFree (d : Dir) (tag : Tag) (s : State) : Host.Outcome State Fault Refusal :=
  .next (s.respond { opc := Opc.rbFree, tag := tag, d0 := wordOfNat (s.rb d).free })

/-- RB_USED (R127). -/
def runRbUsed (d : Dir) (tag : Tag) (s : State) : Host.Outcome State Fault Refusal :=
  .next (s.respond { opc := Opc.rbUsed, tag := tag, d0 := wordOfNat (s.rb d).inQueue })

/-- RB_CAP (R128). -/
def runRbCap (d : Dir) (tag : Tag) (s : State) : Host.Outcome State Fault Refusal :=
  .next (s.respond { opc := Opc.rbCap, tag := tag, d0 := wordOfNat (s.rb d).size })

/-- RB_STATUS (R129). -/
def runRbStatus (d : Dir) (tag : Tag) (s : State) : Host.Outcome State Fault Refusal :=
  .next (s.respond { opc := Opc.rbStatus, tag := tag, d0 := (s.rb d).statusCode })

/-- RB_BEGINDR (R130): the handle is the storage index of the window's first byte. -/
def runRbBegindr (d : Dir) (tag : Tag) (a : Word) (s : State) : Host.Outcome State Fault Refusal :=
  match (s.rb d).expose a.toNat with
  | some (bytes, b) =>
    .next ((s.setRb d b).respond
      { opc := Opc.rbBegindr, tag := tag, wrapped := (s.rb d).windowWrapped a.toNat,
        d0 := wordOfNat (s.rb d).lastChar, d1 := wordOfNat ((s.rb d).windowLength a.toNat), bytes := bytes })
  | none => .fault (.storageRange d)

/-- RB_ENDDR (R131). -/
def runRbEnddr (d : Dir) (tag : Tag) (a : Word) (s : State) : Host.Outcome State Fault Refusal :=
  if (s.rb d).exposed < a.toNat then .next (s.raise .badArgument Opc.rbEnddr tag)
  else .next ((s.setRb d ((s.rb d).consume a.toNat)).respond { opc := Opc.rbEnddr, tag := tag, d0 := a })

/-- RB_CLOSE (R132). -/
def runRbClose (d : Dir) (tag : Tag) (s : State) : Host.Outcome State Fault Refusal :=
  .next ((s.setRb d (s.rb d).close).respond { opc := Opc.rbClose, tag := tag })

end Sys2Proof.Machine
end

