-- ==== Sys2Proof/Machine/Transfer.lean ====
section
/-! DEFINITION. The transfers (44_transfer_watermark.md R263, R266, R269) and the steps they are made of
(20_memory.md R72). -/

namespace Sys2Proof.Machine

/-- ENQ_RX (R263), its acceptance: the transfer record of the issuing port is loaded; the steps T1 and T2 are the
transfer agent's (`copyStep`, `foldStep`). Log entry 12. -/
def runEnqRx (tag : Tag) (bytes : List Byte) (s : State) : Host.Outcome State Fault Refusal :=
  .next (s.setXfer s.issuer (.copy
    { op := .enqRx, tag := tag, a := wordOfNat bytes.length, b := 0#32, payload := bytes }))

/-- DEQ_RX (R266), its step T0: `minBytes` is validated, `ACTIVE` is required, and the record is loaded. -/
def runDeqRx (tag : Tag) (a b : Word) (s : State) : Host.Outcome State Fault Refusal :=
  if a < b then .next (s.raise .badArgument Opc.deqRx tag)
  else if ¬ hasBit s.line Bit.active then .next (s.raise .notOpen Opc.deqRx tag)
  else .next (s.setXfer s.issuer (.copy { op := .deqRx, tag := tag, a := a, b := b, payload := [] }))

/-- ENQ_TX (R269): the payload is discarded, nothing is touched, the count is zero. -/
def runEnqTx (tag : Tag) (_bytes : List Byte) (s : State) : Host.Outcome State Fault Refusal :=
  .next (s.respond { opc := Opc.enqTx, tag := tag, d0 := 0#32 })

/-- The OPC of a transfer's response. -/
def XferOp.opc : XferOp → Byte
  | .enqRx => Opc.enqRx
  | .deqRx => Opc.deqRx

/-- Step T1, the copy under the buffer lock (R263, R264, R266): bytes move, nothing is answered. -/
def copyStep (p : Port) (job : XferJob) (s : State) : Host.Outcome State Fault Refusal :=
  match job.op with
  | .enqRx =>
    match s.rx.pushBulk job.payload with
    | some (n, b) => .next (({ s with rx := b } : State).setXfer p (.fold job n []))
    | none => .fault (.storageRange .rx)
  | .deqRx =>
    match s.rx.popBulk job.a.toNat with
    | some (out, b) => .next (({ s with rx := b } : State).setXfer p (.fold job out.length out))
    | none => .fault (.storageRange .rx)

/-- Step T2, the fold under the state lock and the response (R263, R266): the port is free again. -/
def foldStep (p : Port) (job : XferJob) (count : Nat) (moved : List Byte) (s : State) : State :=
  ((s.setXfer p .idle).fold).send p
    { opc := job.op.opc, tag := job.tag, d0 := wordOfNat count, bytes := moved }

end Sys2Proof.Machine
end

