-- ==== Sys2Proof/Machine/Dispatch.lean ====
section
/-! DEFINITION. One arm per constructor of `Instr`: its meaning. -/

namespace Sys2Proof.Machine

/-- Carrying out one command for the port `s.issuer` (20_memory.md R67). -/
def exec (i : Instr) (s : State) : Host.Outcome State Fault Refusal :=
  match i with
  | .rbInit d tag a => Sys2Proof.Machine.runRbInit d tag a s
  | .rbPush d tag a => Sys2Proof.Machine.runRbPush d tag a s
  | .rbPop d tag => Sys2Proof.Machine.runRbPop d tag s
  | .rbPushbulk d tag bytes => Sys2Proof.Machine.runRbPushbulk d tag bytes s
  | .rbPopbulk d tag a => Sys2Proof.Machine.runRbPopbulk d tag a s
  | .rbFree d tag => Sys2Proof.Machine.runRbFree d tag s
  | .rbUsed d tag => Sys2Proof.Machine.runRbUsed d tag s
  | .rbCap d tag => Sys2Proof.Machine.runRbCap d tag s
  | .rbStatus d tag => Sys2Proof.Machine.runRbStatus d tag s
  | .rbBegindr d tag a => Sys2Proof.Machine.runRbBegindr d tag a s
  | .rbEnddr d tag a => Sys2Proof.Machine.runRbEnddr d tag a s
  | .rbClose d tag => Sys2Proof.Machine.runRbClose d tag s
  | .acquire blocking tag => Sys2Proof.Machine.runAcquire blocking tag s
  | .release tag => Sys2Proof.Machine.runRelease tag s
  | .lreset tag => Sys2Proof.Machine.runLreset tag s
  | .setstate tag a b => Sys2Proof.Machine.runSetstate tag a b s
  | .getstate tag => Sys2Proof.Machine.runGetstate tag s
  | .watchstate tag a b => Sys2Proof.Machine.runWatchstate tag a b s
  | .cancelwait tag => Sys2Proof.Machine.runCancelwait tag s
  | .terminate tag => Sys2Proof.Machine.runTerminate tag s
  | .snapshot tag => Sys2Proof.Machine.runSnapshot tag s
  | .enqRx tag bytes => Sys2Proof.Machine.runEnqRx tag bytes s
  | .deqRx tag a b => Sys2Proof.Machine.runDeqRx tag a b s
  | .enqTx tag bytes => Sys2Proof.Machine.runEnqTx tag bytes s
  | .execEvActive tag a => Sys2Proof.Machine.runExecEvActive tag a s
  | .execEvDataRate tag a => Sys2Proof.Machine.runExecEvDataRate tag a s
  | .execEvDataSize tag a => Sys2Proof.Machine.runExecEvDataSize tag a s
  | .execEvStopBits tag a => Sys2Proof.Machine.runExecEvStopBits tag a s
  | .execEvTxParity tag a => Sys2Proof.Machine.runExecEvTxParity tag a s
  | .execEvRxParity tag a => Sys2Proof.Machine.runExecEvRxParity tag a s
  | .execEvXonByte tag a => Sys2Proof.Machine.runExecEvXonByte tag a s
  | .execEvXoffByte tag a => Sys2Proof.Machine.runExecEvXoffByte tag a s
  | .execEvSpecialByte tag a => Sys2Proof.Machine.runExecEvSpecialByte tag a s
  | .execEvValidDataByte tag a => Sys2Proof.Machine.runExecEvValidDataByte tag a s
  | .execEvMinLatency tag a => Sys2Proof.Machine.runExecEvMinLatency tag a s
  | .execEvDataLatency tag a => Sys2Proof.Machine.runExecEvDataLatency tag a s
  | .execEvCharLatency tag a => Sys2Proof.Machine.runExecEvCharLatency tag a s
  | .execEvFlowControl tag a => Sys2Proof.Machine.runExecEvFlowControl tag a s
  | .execEvLineBreak tag a => Sys2Proof.Machine.runExecEvLineBreak tag a s
  | .execEvRxqSize tag a => Sys2Proof.Machine.runExecEvRxqSize tag a s
  | .execEvTxqSize tag a => Sys2Proof.Machine.runExecEvTxqSize tag a s
  | .execEvRxqHighWater tag a => Sys2Proof.Machine.runExecEvRxqHighWater tag a s
  | .execEvRxqLowWater tag a => Sys2Proof.Machine.runExecEvRxqLowWater tag a s
  | .execEvTxqHighWater tag a => Sys2Proof.Machine.runExecEvTxqHighWater tag a s
  | .execEvTxqLowWater tag a => Sys2Proof.Machine.runExecEvTxqLowWater tag a s
  | .reqEvActive tag => Sys2Proof.Machine.runReqEvActive tag s
  | .reqEvDataRate tag => Sys2Proof.Machine.runReqEvDataRate tag s
  | .reqEvDataSize tag => Sys2Proof.Machine.runReqEvDataSize tag s
  | .reqEvStopBits tag => Sys2Proof.Machine.runReqEvStopBits tag s
  | .reqEvTxParity tag => Sys2Proof.Machine.runReqEvTxParity tag s
  | .reqEvRxParity tag => Sys2Proof.Machine.runReqEvRxParity tag s
  | .reqEvXonByte tag => Sys2Proof.Machine.runReqEvXonByte tag s
  | .reqEvXoffByte tag => Sys2Proof.Machine.runReqEvXoffByte tag s
  | .reqEvSpecialByte tag => Sys2Proof.Machine.runReqEvSpecialByte tag s
  | .reqEvValidDataByte tag => Sys2Proof.Machine.runReqEvValidDataByte tag s
  | .reqEvMinLatency tag => Sys2Proof.Machine.runReqEvMinLatency tag s
  | .reqEvDataLatency tag => Sys2Proof.Machine.runReqEvDataLatency tag s
  | .reqEvCharLatency tag => Sys2Proof.Machine.runReqEvCharLatency tag s
  | .reqEvFlowControl tag => Sys2Proof.Machine.runReqEvFlowControl tag s
  | .reqEvLineBreak tag => Sys2Proof.Machine.runReqEvLineBreak tag s
  | .reqEvRxqSize tag => Sys2Proof.Machine.runReqEvRxqSize tag s
  | .reqEvTxqSize tag => Sys2Proof.Machine.runReqEvTxqSize tag s
  | .reqEvRxqHighWater tag => Sys2Proof.Machine.runReqEvRxqHighWater tag s
  | .reqEvRxqLowWater tag => Sys2Proof.Machine.runReqEvRxqLowWater tag s
  | .reqEvTxqHighWater tag => Sys2Proof.Machine.runReqEvTxqHighWater tag s
  | .reqEvTxqLowWater tag => Sys2Proof.Machine.runReqEvTxqLowWater tag s

end Sys2Proof.Machine
end

