-- ==== Sys2Proof/Machine/Agents.lean ====
section
/-! DEFINITION. The agents and the steps each can take (20_memory.md R62 to R67; 70_reset_and_hazards.md R320). -/

namespace Sys2Proof.Machine

/-- A command carried out for the port `s.issuer`: a frame that names no operation is answered BadArgument with its OPC
and TAG echoed, and changes nothing (30_encoding.md R98; 42_events_execute.md R212; 43_events_request.md R252). -/
def runCommand (c : Command) (s : State) : Host.Outcome State Fault Refusal :=
  match decode c.frame c.payload with
  | .ok i => exec i s
  | .error .payloadLength => .refused .payloadLength
  | .error .unknownOpcode => .next (s.raise .badArgument (opcOf c.frame) (tagOf c.frame))
  | .error .reservedField => .next (s.raise .badArgument (opcOf c.frame) (tagOf c.frame))
  | .error .badSelector => .next (s.raise .badArgument (opcOf c.frame) (tagOf c.frame))
  | .error .unknownKind => .next (s.raise .badArgument (opcOf c.frame) (tagOf c.frame))

/-- The state in which the first command presented on a port is carried out: it is no longer waiting, and the port is the
one that issued it. -/
def State.taking (s : State) (p : Port) (rest : List Command) : State := { s.setPend p rest with issuer := p }

/-- The initiator's step on a port (R66 (1), (2), R67): with nothing presented, or with a transfer in flight on the port,
no command is accepted. -/
def acceptStep (p : Port) (s : State) : Host.Outcome State Fault Refusal :=
  match s.pend p with
  | [] => .next s
  | c :: rest => if s.xfer p = .idle then runCommand c (s.taking p rest) else .next s

/-- The re-test step of a watcher slot, enabled while its wait is awake (R66 (3), 41_linestate.md R166). -/
def retestStep (w : Nat) (s : State) : State :=
  match s.slot w with
  | some x => if x.awake = true then s.retest w x else s
  | none => s

/-- The next step of the transfer in flight on a port (R66 (4), R72). -/
def transferStep (p : Port) (s : State) : Host.Outcome State Fault Refusal :=
  match s.xfer p with
  | .idle => .next s
  | .copy job => copyStep p job s
  | .fold job count moved => .next (foldStep p job count moved s)

/-- Hardware reset (R320): every register as R47 says, waits and transfers dropped without a response, commands not yet
accepted discarded, no frame emitted. What has been observed and what is still to be scheduled are not the engine's. -/
def hardwareReset (s : State) : State :=
  { State.resetWith s.params with schedule := s.schedule, outH := s.outH, outW := s.outW, outN := s.outN }

/-- One turn. A turn given to an agent that has no step enabled changes nothing (log entry 4). -/
def takeTurn (t : Turn) (s : State) : Host.Outcome State Fault Refusal :=
  match t with
  | .present p c => .next (s.setPend p (s.pend p ++ [c]))
  | .accept p => acceptStep p s
  | .retest w => .next (retestStep w s)
  | .transfer p => transferStep p s
  | .reset => .next (hardwareReset s)

/-- The first slot, from `w` up, whose wait is awake. -/
def firstAwake : Nat → List (Option Wait) → Option Nat
  | _, [] => none
  | w, none :: xs => firstAwake (w + 1) xs
  | w, some x :: xs => if x.awake = true then some w else firstAwake (w + 1) xs

/-- The turn taken when nothing is scheduled: transfers first, then woken slots, then presented commands, port H before W
and low slots before high ones; none when no agent has a step enabled. DESIGN CHOICE, log entry 5: the spec promises
that an enabled agent steps eventually (R76) and no order. -/
def State.freeTurn (s : State) : Option Turn :=
  if s.xferH ≠ .idle then some (.transfer .H)
  else if s.xferW ≠ .idle then some (.transfer .W)
  else match firstAwake 0 s.slots with
    | some w => some (.retest w)
    | none =>
      if s.pendH ≠ [] then some (.accept .H)
      else if s.pendW ≠ [] then some (.accept .W)
      else none

end Sys2Proof.Machine
end

