-- ==== Sys2Proof/Machine/Step.lean ====
section
/-! DEFINITION. One atomic step of the engine (20_memory.md R62), and how a word of the opcode table comes to be its next
command. -/

namespace Sys2Proof.Machine

/-- One step: the next scheduled turn, or with nothing scheduled the first enabled agent's, or nothing at all while no
agent has a step enabled. -/
def step (s : State) : Host.Outcome State Fault Refusal :=
  match s.schedule with
  | t :: rest => takeTurn t { s with schedule := rest }
  | [] =>
    match s.freeTurn with
    | some t => takeTurn t s
    | none => .next s

/-- The state with the command of a table word presented on port H, that port free, and its acceptance scheduled next
(log entry 7). -/
def State.withFetchWord (s : State) (nbits w : Nat) : State :=
  { s with
    xferH := .idle
    pendH := commandOfWord nbits w :: s.pendH
    schedule := .accept .H :: s.schedule }

end Sys2Proof.Machine
end

