-- ==== Sys2Proof/Safety.lean ====
section
/-! DEFINITION. What counts as a good state and a safe run: the invariants the spec gives the registers (10_state.md R25,
R27, R28, R32, R34, R37, R43 to R45), the abstract content of a ring buffer, and what an observer cannot see. -/

namespace Sys2Proof.Machine

/-! ### Ring buffers -/

/-- The invariants of an open buffer (R25). -/
abbrev RingBuffer.openOk (depth : Nat) (b : RingBuffer) : Prop :=
  b.valid = true ∧ (1 ≤ b.size ∧ b.size ≤ depth) ∧ b.inQueue ≤ b.size ∧
  (b.lastChar < b.size ∧ b.nextChar < b.size) ∧ b.nextChar = (b.lastChar + b.inQueue) % b.size ∧
  (b.exposed ≤ b.inQueue ∧ b.lastChar + b.exposed ≤ b.size)

/-- A closed buffer (R27). -/
abbrev RingBuffer.closedOk (b : RingBuffer) : Prop :=
  b.valid = false ∧ b.size = 0 ∧ b.lastChar = 0 ∧ b.nextChar = 0 ∧ b.inQueue = 0 ∧ b.exposed = 0

/-- The invariants of a ring buffer, open or closed (R25, R27). -/
abbrev RingBuffer.ok (depth : Nat) (b : RingBuffer) : Prop := b.openOk depth ∨ b.closedOk

/-- The storage is in canonical form and lists nothing outside the physical storage of `DEPTH_d` bytes (R22). -/
abbrev Memory.ok (depth : Nat) (m : Memory) : Prop := m.wf = true ∧ ∀ c ∈ m, c.1 < depth

/-- The buffered bytes, oldest first: the window of `InQueue` indices from the read cursor, wrapping at `Size`. -/
def RingBuffer.contents (b : RingBuffer) : List Byte :=
  (List.range b.inQueue).map fun k => b.mem.read ((b.lastChar + k) % b.size)

/-- Both ring buffers meet their invariants. -/
abbrev State.buffersOk (s : State) : Prop :=
  s.rx.ok s.params.depthRx ∧ s.tx.ok s.params.depthTx ∧
  s.rx.mem.ok s.params.depthRx ∧ s.tx.mem.ok s.params.depthTx

/-- One ring buffer and its storage meet their invariants. -/
abbrev State.ringOk (s : State) (d : Dir) : Prop := (s.rb d).ok (s.depth d) ∧ (s.rb d).mem.ok (s.depth d)

/-! ### The line -/

/-- The invariants of the register `State` (R32): reserved bits and `LOOP` are 0, `ACTIVE` implies `ACQUIRED`, and with
`ACQUIRED = 0` only queue bits can be set. -/
abbrev State.lineOk (s : State) : Prop :=
  s.line &&& ~~~Mask.defined = 0#32 ∧ (hasBit s.line Bit.active → hasBit s.line Bit.acquired) ∧
  ¬ hasBit s.line Bit.loop ∧ (¬ hasBit s.line Bit.acquired → s.line &&& ~~~Mask.queue = 0#32)

/-- The OR of the interests of the slots that are busy and not awake (R34). -/
def blockedInterest : List (Option Wait) → Word
  | [] => 0#32
  | none :: xs => blockedInterest xs
  | some x :: xs => (if x.awake then 0#32 else x.interest) ||| blockedInterest xs

/-- The invariant of `WatchMask` (R34). -/
abbrev State.watchMaskOk (s : State) : Prop := s.watchMask = blockedInterest s.slots

/-- There are `NWATCH` slots (R45). -/
abbrev State.slotsOk (s : State) : Prop := s.slots.length = s.params.nwatch

/-- The fields a parked wait has by its kind (R45): an ACQUIRE watches `ACQUIRED` for 0 and has no implicit wait, a
WATCHSTATE has the implicit wait exactly when its mask lacks `ACTIVE`. -/
abbrev Wait.ok (x : Wait) : Prop :=
  match x.kind with
  | .acq => x.target = 0#32 ∧ x.mask = Bit.acquired ∧ x.auto = false
  | .watch => x.auto = autoOf x.mask

/-- Every parked wait has the fields of its kind. -/
abbrev State.waitsOk (s : State) : Prop := ∀ x, some x ∈ s.slots → x.ok

/-- A wait's condition does not hold in a state word: a re-test would put it back to sleep (R162, R166). -/
abbrev Wait.unmet (x : Wait) (line : Word) : Prop :=
  match x.kind with
  | .acq => hasBit line Bit.acquired
  | .watch => watchTest line x.target x.mask x.auto = .unsatisfied

/-- No wake-up is lost (R174 (a)): a wait that is asleep is one whose condition does not hold. -/
abbrev State.noLostWakeup (s : State) : Prop := ∀ x, some x ∈ s.slots → x.awake = false → x.unmet s.line

/-- On a terminating line no wait is parked (R170). -/
abbrev State.terminatedOk (s : State) : Prop := s.terminating = true → ∀ x, some x ∉ s.slots

/-! ### The bank and the watermarks -/

/-- The registers of the bank hold legal values (R37, R43, R44). -/
abbrev LinkBank.ok (p : Params) (k : LinkBank) : Prop :=
  (p.minBaud ≤ k.baudRate.toNat ∧ k.baudRate.toNat ≤ p.maxBaud) ∧ (5#8 ≤ k.charLength ∧ k.charLength ≤ 8#8) ∧
  k.stopBits ≤ 20#8 ∧ (1#8 ≤ k.txParity ∧ k.txParity ≤ 5#8) ∧ (k.rxParity = 0#8 ∨ k.rxParity = 6#8) ∧
  k.flowControlMode &&& ~~~Mask.flowLegal = 0#32 ∧ (k.flowRuntime = 1#8 ∧ k.rxProto = 0#8 ∧ k.txProto = 0#8)

/-- The watermark registers are zero until the first acquisition and then those of the physical depth (R28). -/
abbrev Watermarks.ok (depth : Nat) (w : Watermarks) : Prop := w = Watermarks.zero ∨ w = Watermarks.ofDepth depth

/-! ### Inputs -/

/-- A command carries the payload its frame announces (R92). -/
abbrev completeCommand (c : Command) : Prop := decode c.frame c.payload ≠ .error .payloadLength

/-- Every command that is, or will be, presented is complete. -/
abbrev State.inputsOk (s : State) : Prop :=
  (∀ c ∈ s.pendH, completeCommand c) ∧ (∀ c ∈ s.pendW, completeCommand c) ∧ (∀ p c, Turn.present p c ∈ s.schedule → completeCommand c)

/-! ### The whole -/

/-- A good state. -/
structure State.Inv (s : State) : Prop where
  params : s.params.legal
  buffers : s.buffersOk
  line : s.lineOk
  slots : s.slotsOk
  waits : s.waitsOk
  watchMask : s.watchMaskOk
  noLostWakeup : s.noLostWakeup
  terminated : s.terminatedOk
  bank : s.bank.ok s.params
  wmRx : s.wmRx.ok s.params.depthRx
  wmTx : s.wmTx.ok s.params.depthTx
  inputs : s.inputsOk

/-- The queue bits of `State` are those of the live counters (44_transfer_watermark.md R271). -/
abbrev State.queueBitsAgree (s : State) : Prop := s.line &&& Mask.queue = s.queueBits

/-- A transfer that is between its copy and its fold (20_memory.md R72). -/
def Xfer.folding : Xfer → Bool
  | .fold _ _ _ => true
  | _ => false

/-- No transfer is between its T1 and its T2 (44_transfer_watermark.md R271). -/
abbrev State.quiescent (s : State) : Prop := s.xferH.folding = false ∧ s.xferW.folding = false

/-- No agent has a step enabled: no transfer in flight, no wait awake. -/
abbrev State.settled (s : State) : Prop :=
  s.xferH = .idle ∧ s.xferW = .idle ∧ ∀ x, some x ∈ s.slots → x.awake = false

/-! ### What an observer cannot see -/

/-- Two ring buffers that differ at most in storage bytes outside the buffered window. -/
abbrev RingBuffer.sameButStale (b c : RingBuffer) : Prop :=
  c = { b with mem := c.mem } ∧ c.contents = b.contents

/-- Two states that differ at most in storage bytes outside the buffered windows (10_state.md R22: "no rule reads a byte
that no push has written"). -/
abbrev State.sameButStale (s t : State) : Prop :=
  t = { s with rx := t.rx, tx := t.tx } ∧ s.rx.sameButStale t.rx ∧ s.tx.sameButStale t.tx

/-! ### Answers and modes -/

/-- The last response sent on the port whose command was carried out. -/
def State.lastAnswer (s : State) : Option Response := (s.out s.issuer).getLast?

/-- An event applied, `t` being the state it leaves: one ConfigSnapshot of that state, then the answer (R190). -/
abbrev State.eventDone (t : State) (tag : Tag) : State :=
  (t.notify (.configSnapshot t.bank.snapshot)).respond { status := .ok, opc := 0x30#8, tag := tag }

/-- An event refused: the answer alone (R190). -/
abbrev State.eventRefused (s : State) (tag : Tag) (k : Status) : State :=
  s.respond { status := k, opc := 0x30#8, tag := tag }

/-- The answers of the waits parked for one port, were they all completed Offline: one for each, with the OPC and TAG of the
command that parked (R170). -/
def offlineAnswers (p : Port) : Nat → List (Option Wait) → List Response
  | _, [] => []
  | w, none :: xs => offlineAnswers p (w + 1) xs
  | w, some x :: xs =>
    if x.port = p then
      { status := .offline, opc := x.kind.opc, tag := BitVec.ofNat 8 w } :: offlineAnswers p (w + 1) xs
    else offlineAnswers p (w + 1) xs

/-! ### Families of instructions -/

/-- The ring-buffer operations, by their direction (40_ringbuffer.md). -/
def ringDirOf : Instr → Option Dir
  | .rbInit d _ _ => some d
  | .rbPush d _ _ => some d
  | .rbPop d _ => some d
  | .rbPushbulk d _ _ => some d
  | .rbPopbulk d _ _ => some d
  | .rbFree d _ => some d
  | .rbUsed d _ => some d
  | .rbCap d _ => some d
  | .rbStatus d _ => some d
  | .rbBegindr d _ _ => some d
  | .rbEnddr d _ _ => some d
  | .rbClose d _ => some d
  | _ => none

/-- The opcodes of the raw ring-buffer operations that can change what is buffered or the capacity, and so leave the queue
bits of `State` stale (70_reset_and_hazards.md R337). -/
abbrev rawOccupancy (opc : Byte) : Prop := opc ∈ [0x00#8, 0x01#8, 0x02#8, 0x03#8, 0x04#8, 0x0A#8, 0x0B#8]

/-- An event whose operand fails the validity predicate of its kind (42_events_execute.md R192 to R200, R204). -/
abbrev dataRefused (p : Params) : Instr → Prop
  | .execEvDataRate _ a => a.toNat < p.minBaud ∨ p.maxBaud < a.toNat
  | .execEvDataSize _ a => a.toNat < 5 ∨ 8 < a.toNat
  | .execEvStopBits _ a => 20 < a.toNat
  | .execEvTxParity _ a => a.toNat = 0 ∨ 5 < a.toNat
  | .execEvRxParity _ a => a.toNat ≠ 0 ∧ a.toNat ≠ 6
  | .execEvXonByte _ a => 0xFF < a.toNat
  | .execEvXoffByte _ a => 0xFF < a.toNat
  | .execEvSpecialByte _ a => 0xFF < a.toNat
  | .execEvValidDataByte _ a => 0xFF < a.toNat
  | .execEvFlowControl _ a => a &&& ~~~0x001E001C#32 ≠ 0#32
  | _ => False

/-- The events that store their operand in a register of the bank: the kind and the word its REQ then gives (R253). -/
def storesOf : Instr → Option (Byte × Word)
  | .execEvDataRate _ a => some (0x01#8, a)
  | .execEvDataSize _ a => some (0x02#8, a &&& 0xFF#32)
  | .execEvStopBits _ a => some (0x03#8, a &&& 0xFF#32)
  | .execEvTxParity _ a => some (0x04#8, a &&& 0xFF#32)
  | .execEvRxParity _ a => some (0x05#8, a &&& 0xFF#32)
  | .execEvXonByte _ a => some (0x06#8, a &&& 0xFF#32)
  | .execEvXoffByte _ a => some (0x07#8, a &&& 0xFF#32)
  | .execEvMinLatency _ a => some (0x0A#8, if a ≠ 0#32 then 1#32 else 0#32)
  | .execEvDataLatency _ a => some (0x0B#8, a)
  | .execEvCharLatency _ a => some (0x0C#8, a)
  | .execEvFlowControl _ a => some (0x0D#8, a)
  | _ => none

/-- The read-backs of those kinds. -/
def readsBackOf : Instr → Option Byte
  | .reqEvDataRate _ => some 0x01#8
  | .reqEvDataSize _ => some 0x02#8
  | .reqEvStopBits _ => some 0x03#8
  | .reqEvTxParity _ => some 0x04#8
  | .reqEvRxParity _ => some 0x05#8
  | .reqEvXonByte _ => some 0x06#8
  | .reqEvXoffByte _ => some 0x07#8
  | .reqEvMinLatency _ => some 0x0A#8
  | .reqEvDataLatency _ => some 0x0B#8
  | .reqEvCharLatency _ => some 0x0C#8
  | .reqEvFlowControl _ => some 0x0D#8
  | _ => none

/-- The answer a REQ of one of those kinds gives in a state, taken from the response it sends. -/
def State.readBackOf (s : State) (k : Byte) : Option Word :=
  match decode (mkFrame 0x31#8 k 0x00#8 0#32 0#32) [] with
  | .ok i =>
    match exec i s with
    | .next t => t.lastAnswer.map Response.d0
    | _ => none
  | .error _ => none

/-! ### Traffic through one ring buffer -/

/-- The bytes that went in and came out, as the responses report them. -/
structure Ledger where
  accepted : List Byte
  delivered : List Byte
  deriving DecidableEq, Repr

/-- The ledger after a ring-buffer operation of direction `d` that took `s` to `t`: a successful RB_INIT starts it again;
pushes add what their response says was accepted; pops add what their response carries; RB_ENDDR adds the bytes of the
window it consumes (40_ringbuffer.md R133). -/
def Ledger.after (l : Ledger) (d : Dir) (i : Instr) (s t : State) : Ledger :=
  match t.lastAnswer with
  | none => l
  | some r =>
    if r.status = .ok then
      match i with
      | .rbInit _ _ _ => { accepted := [], delivered := [] }
      | .rbPush _ _ a => { l with accepted := l.accepted ++ [a.setWidth 8] }
      | .rbPushbulk _ _ bytes => { l with accepted := l.accepted ++ bytes.take r.d0.toNat }
      | .rbPop _ _ => { l with delivered := l.delivered ++ [r.d0.setWidth 8] }
      | .rbPopbulk _ _ _ => { l with delivered := l.delivered ++ r.bytes }
      | .rbEnddr _ _ a =>
        { l with delivered := l.delivered ++
            (List.range a.toNat).map fun k => (s.rb d).mem.read ((s.rb d).lastChar + k) }
      | _ => l
    else l

/-- A sequence of ring-buffer operations of direction `d`, with its ledger. -/
def runRing (d : Dir) : List Instr → State → Ledger → Option (State × Ledger)
  | [], s, l => some (s, l)
  | i :: is, s, l =>
    match exec i s with
    | .next t => runRing d is t (l.after d i s t)
    | _ => none

/-! ### Malformed frames -/

/-- The opcodes of R96. -/
abbrev isOpcode (o : Byte) : Prop :=
  o ≤ 0x0B#8 ∨ (0x10#8 ≤ o ∧ o ≤ 0x18#8) ∨ (0x20#8 ≤ o ∧ o ≤ 0x22#8) ∨ o = 0x30#8 ∨ o = 0x31#8

/-- A malformed frame, in the words of R98: `OPC` not in the table; `RSV` not zero; `SEL[7:1]` not zero for a ring-buffer
operation or ACQUIRE; `SEL` not zero for an operation whose `SEL` column is `0x00`. -/
abbrev malformed (f : Frame) : Prop :=
  ¬ isOpcode (opcOf f) ∨ rsvOf f ≠ 0x00#8 ∨
  ((opcOf f ≤ 0x0B#8 ∨ opcOf f = 0x10#8) ∧ 0x02#8 ≤ selOf f) ∨
  (((0x11#8 ≤ opcOf f ∧ opcOf f ≤ 0x18#8) ∨ (0x20#8 ≤ opcOf f ∧ opcOf f ≤ 0x22#8)) ∧ selOf f ≠ 0x00#8)

/-- `SEL` names no event kind (R97): `0x0F` and `0x16 … 0xFF`. -/
abbrev noKind (sel : Byte) : Prop := sel = 0x0F#8 ∨ 0x16#8 ≤ sel

/-- The operand `A` is named by the operation of this opcode, in the table's column of operands (R96). -/
abbrev namesA (opc : Byte) : Prop :=
  opc ∈ [0x00#8, 0x01#8, 0x03#8, 0x04#8, 0x09#8, 0x0A#8, 0x13#8, 0x15#8, 0x20#8, 0x21#8, 0x22#8, 0x30#8]

/-- The operand `B` is named by the operation of this opcode (R96). -/
abbrev namesB (opc : Byte) : Prop := opc ∈ [0x13#8, 0x15#8, 0x21#8]

/-- The frame announces a payload of `A` bytes (R92). -/
abbrev carriesPayload (opc : Byte) : Prop := opc ∈ [0x03#8, 0x20#8, 0x22#8]

end Sys2Proof.Machine
end

