-- ==== Sys2Proof/Certificates/Slice0/Obligations.lean ====
section
/-! DEFINITION. The statements for the provers. Each docstring names the rules of spec/ that the statement formalises. -/

open Sys2Proof Sys2Proof.Machine

/-! ### Encoding -/

/-- Every instruction a frame can carry is read back from its encoding, with every operand at every value (R90 to R97). -/
def Obligations.DecodeInvertsEncode : Prop :=
  ∀ i : Instr, i.wellFormed → decode (encode i).frame (encode i).payload = .ok i

/-- What an accepted frame carries, and that an operand the operation does not name "is ignored: any value is accepted and
has no effect" (R91, R96). -/
def Obligations.FrameFieldsBecomeOperands : Prop :=
  ∀ (f : Frame) (bytes : List Byte) (i : Instr), decode f bytes = .ok i →
    (opcOf f = i.opc ∧ selOf f = i.sel ∧ tagOf f = i.tag ∧ rsvOf f = 0x00#8 ∧ i.payload = bytes ∧ i.wellFormed ∧
      (namesA (opcOf f) → operandA f = i.a) ∧ (namesB (opcOf f) → operandB f = i.b)) ∧
    ∀ g : Frame, opcOf g = opcOf f → selOf g = selOf f → tagOf g = tagOf f → rsvOf g = rsvOf f →
      (namesA (opcOf f) → operandA g = operandA f) → (namesB (opcOf f) → operandB g = operandB f) →
      decode g bytes = .ok i

/-- When the decoder refuses a frame: exactly when it is malformed in the words of R98, when EXEC or REQ names no event kind
(R97), or when the payload is not of the announced length (R92; that no port presents one is the model's reading, log
entry 8); and otherwise it answers an instruction. -/
def Obligations.DecoderRefusesExactly : Prop :=
  ∀ (f : Frame) (bytes : List Byte),
    (malformed f ↔ decode f bytes = .error .reservedField ∨ decode f bytes = .error .unknownOpcode ∨
      decode f bytes = .error .badSelector) ∧
    (¬ malformed f ∧ (opcOf f = 0x30#8 ∨ opcOf f = 0x31#8) ∧ noKind (selOf f) ↔
      decode f bytes = .error .unknownKind) ∧
    (¬ malformed f ∧ ¬ ((opcOf f = 0x30#8 ∨ opcOf f = 0x31#8) ∧ noKind (selOf f)) ∧
        bytes.length ≠ (if carriesPayload (opcOf f) then (operandA f).toNat else 0) ↔
      decode f bytes = .error .payloadLength) ∧
    (¬ malformed f ∧ ¬ ((opcOf f = 0x30#8 ∨ opcOf f = 0x31#8) ∧ noKind (selOf f)) ∧
        bytes.length = (if carriesPayload (opcOf f) then (operandA f).toNat else 0) ↔
      ∃ i, decode f bytes = .ok i)

/-- A malformed frame is answered BadArgument with its OPC and TAG, whatever the state and the payload, and changes nothing
else; EXEC and REQ with a SEL that names no event kind are not malformed frames (R98). They are answered BadArgument too, in
every state and before any other check (R212, R252). -/
def Obligations.FramesThatNameNothingAreAnswered : Prop :=
  (∀ (s : State) (p : Port) (c : Command) (rest : List Command),
    s.pend p = c :: rest → s.xfer p = .idle → malformed c.frame →
    takeTurn (.accept p) s = .next (({ s.setPend p rest with issuer := p } : State).respond
      { status := .badArgument, opc := opcOf c.frame, tag := tagOf c.frame, d0 := 0#32, d1 := 0#32 })) ∧
  (∀ f : Frame, (opcOf f = 0x30#8 ∨ opcOf f = 0x31#8) → rsvOf f = 0x00#8 → ¬ malformed f) ∧
  ∀ (s : State) (p : Port) (rest : List Command) (o sel : Byte) (tag : Tag) (a b : Word) (bytes : List Byte),
    s.pend p = { frame := mkFrame o sel tag a b, payload := bytes } :: rest → s.xfer p = .idle →
    (o = 0x30#8 ∨ o = 0x31#8) → (sel = 0x0F#8 ∨ 0x16#8 ≤ sel) →
    takeTurn (.accept p) s = .next (({ s.setPend p rest with issuer := p } : State).respond
      { status := .badArgument, opc := o, tag := tag, d0 := 0#32, d1 := 0#32 })

/-- The fields of the frames the engine sends: responses (R93, with the codes of R280), StateChanged and ConfigSnapshot
(R95). -/
def Obligations.OutputFrameLayouts : Prop :=
  (∀ r : Response,
    r.frame.extractLsb' 0 8 = r.status.code ∧ r.frame.extractLsb' 8 8 = r.opc ∧ r.frame.extractLsb' 16 8 = r.tag ∧
    r.frame.getLsbD 24 = r.wrapped ∧ r.frame.extractLsb' 25 7 = 0#7 ∧ r.frame.extractLsb' 32 32 = r.d0 ∧
    r.frame.extractLsb' 64 32 = r.d1) ∧
  (Status.code .ok = 0#8 ∧ Status.code .queueFull = 1#8 ∧ Status.code .queueEmpty = 2#8 ∧
    Status.code .badArgument = 3#8 ∧ Status.code .notOpen = 4#8 ∧ Status.code .exclusiveAccess = 5#8 ∧
    Status.code .offline = 6#8 ∧ Status.code .cancelled = 7#8 ∧ Status.code .ioError = 8#8) ∧
  (∀ v : Word, (stateChangedFrame v).extractLsb' 0 8 = 0x01#8 ∧ (stateChangedFrame v).extractLsb' 8 24 = 0#24 ∧
    (stateChangedFrame v).extractLsb' 32 32 = v) ∧
  ∀ k : LinkBank,
    (k.snapshot.w0.extractLsb' 0 8 = 0x02#8 ∧ k.snapshot.w0.extractLsb' 8 8 = k.charLength ∧
      k.snapshot.w0.extractLsb' 16 8 = k.stopBits ∧ k.snapshot.w0.extractLsb' 24 8 = k.txParity) ∧
    (k.snapshot.w1.extractLsb' 0 8 = k.rxParity ∧ k.snapshot.w1.extractLsb' 8 8 = (if k.minLatency then 1#8 else 0#8) ∧
      k.snapshot.w1.extractLsb' 16 8 = k.xonByte ∧ k.snapshot.w1.extractLsb' 24 8 = k.xoffByte) ∧
    k.snapshot.w2 = k.baudRate ∧ k.snapshot.w3 = k.flowControlMode ∧
    (k.snapshot.w4.extractLsb' 0 8 = k.flowRuntime ∧ k.snapshot.w4.extractLsb' 8 8 = k.rxProto ∧
      k.snapshot.w4.extractLsb' 16 8 = k.txProto ∧ k.snapshot.w4.extractLsb' 24 8 = 0#8) ∧
    (k.snapshot.frame.extractLsb' 0 32 = k.snapshot.w0 ∧ k.snapshot.frame.extractLsb' 32 32 = k.snapshot.w1 ∧
      k.snapshot.frame.extractLsb' 64 32 = k.snapshot.w2 ∧ k.snapshot.frame.extractLsb' 96 32 = k.snapshot.w3 ∧
      k.snapshot.frame.extractLsb' 128 32 = k.snapshot.w4)

/-- Sanity: frames written out in the spec's examples decode to the commands the examples name (R121, R122, R152, R158, R163,
R263, R266, R192, R251). -/
def Obligations.SpecExampleFramesDecode : Prop :=
  decode 0x00000000_00000008_00000000#96 [] = .ok (.rbInit .rx 0#8 8#32) ∧
  decode 0x00000000_00000041_00000101#96 [] = .ok (.rbPush .tx 0#8 0x41#32) ∧
  decode 0x00000000_00000000_00000010#96 [] = .ok (.acquire false 0#8) ∧
  decode 0x00000004_00000004_00000013#96 [] = .ok (.setstate 0#8 4#32 4#32) ∧
  decode 0x00040000_00000000_00000015#96 [] = .ok (.watchstate 0#8 0#32 0x40000#32) ∧
  decode 0x00000000_00000003_00000020#96 [1#8, 2#8, 3#8] = .ok (.enqRx 0#8 [1#8, 2#8, 3#8]) ∧
  decode 0x00000000_00000040_00000021#96 [] = .ok (.deqRx 0#8 64#32 0#32) ∧
  decode 0x00000000_00004B00_00000130#96 [] = .ok (.execEvDataRate 0#8 19200#32) ∧
  decode 0x00000000_00000000_00001531#96 [] = .ok (.reqEvTxqLowWater 0#8)

/-! ### Steps -/

/-- A step runs the decoded instruction: when a port's turn comes and the first command presented there decodes to `i`, the
step is `exec i` in the state with the turn and the command taken and the port noted as the issuer. With nothing scheduled
and no other agent enabled, port H's first command is taken (log entry 5). While a transfer of the port is in flight no
command is accepted (R66, R67). -/
def Obligations.StepRunsTheDecodedInstruction : Prop :=
  (∀ (s : State) (p : Port) (c : Command) (cs : List Command) (turns : List Turn) (i : Instr),
    s.schedule = .accept p :: turns → s.pend p = c :: cs → s.xfer p = .idle → decode c.frame c.payload = .ok i →
    step s = exec i { ({ s with schedule := turns } : State).setPend p cs with issuer := p }) ∧
  (∀ (s : State) (c : Command) (cs : List Command) (i : Instr),
    s.schedule = [] → s.pendH = c :: cs → s.xferH = .idle → s.xferW = .idle →
    (∀ x, some x ∈ s.slots → x.awake = false) → decode c.frame c.payload = .ok i →
    step s = exec i { s with pendH := cs, issuer := .H }) ∧
  ∀ (s : State) (p : Port) (turns : List Turn), s.schedule = .accept p :: turns → s.xfer p ≠ .idle →
    step s = .next { s with schedule := turns }

/-- Hardware reset, from any state: one step that puts every register in its reset state, drops waits, transfers and
commands, and sends nothing (R320, R47); and it is the only turn that clears `Terminating` (R320). Storage bytes are
unspecified and the statement says nothing of them. -/
def Obligations.HardwareResetRestoresEverything : Prop :=
  (∀ (turn : Turn) (s t : State), takeTurn turn s = .next t → s.terminating = true → t.terminating = false →
    turn = .reset) ∧
  ∀ (s : State) (turns : List Turn), s.schedule = .reset :: turns →
    ∃ t, step s = .next t ∧
      (t.rx.valid = false ∧ t.rx.size = 0 ∧ t.rx.lastChar = 0 ∧ t.rx.nextChar = 0 ∧ t.rx.inQueue = 0 ∧ t.rx.exposed = 0) ∧
      (t.tx.valid = false ∧ t.tx.size = 0 ∧ t.tx.lastChar = 0 ∧ t.tx.nextChar = 0 ∧ t.tx.inQueue = 0 ∧ t.tx.exposed = 0) ∧
      t.wmRx = { bufferSize := 0, highWater := 0, lowWater := 0 } ∧
      t.wmTx = { bufferSize := 0, highWater := 0, lowWater := 0 } ∧
      t.line = 0#32 ∧ t.watchMask = 0#32 ∧ t.terminating = false ∧
      t.bank = { baudRate := 9600#32, charLength := 8#8, stopBits := 2#8, txParity := 1#8, rxParity := 0#8,
                 xonByte := 0x11#8, xoffByte := 0x13#8, specialChars := 0#256, minLatency := false,
                 dataLatency := 0#32, charLatency := 0#32, flowControlMode := 0#32, flowRuntime := 1#8,
                 rxProto := 0#8, txProto := 0#8 } ∧
      t.slots = List.replicate s.params.nwatch none ∧ t.xferH = .idle ∧ t.xferW = .idle ∧
      t.pendH = [] ∧ t.pendW = [] ∧
      t.outH = s.outH ∧ t.outW = s.outW ∧ t.outN = s.outN ∧ t.params = s.params

/-- The machine right after reset is a good state, for every legal choice of the parameters (R5, R25, R27, R28, R32, R34,
R47), and the parameters of `State.reset` are such a choice (log entry 1). -/
def Obligations.ResetStateIsGood : Prop :=
  (∀ p : Params, p.legal → (State.resetWith p).Inv) ∧ State.reset = State.resetWith Params.sample ∧
  Params.sample.legal ∧ State.reset.line = 0#32 ∧ State.reset.watchMask = 0#32 ∧ State.reset.terminating = false

/-! ### Ring-buffer operations -/

/-- RB_INIT (R121). -/
def Obligations.RbInitRule : Prop :=
  ∀ (d : Dir) (tag : Tag) (a b : Word) (s : State),
    decode (mkFrame 0x00#8 (selOfDir d) tag a b) [] = .ok (.rbInit d tag a) ∧
    (a = 0#32 ∨ s.depth d < a.toNat →
      exec (.rbInit d tag a) s = .next (s.respond { status := .badArgument, opc := 0x00#8, tag := tag })) ∧
    (¬ (a = 0#32 ∨ s.depth d < a.toNat) →
      exec (.rbInit d tag a) s = .next ((s.setRb d
        { mem := (s.rb d).mem, size := a.toNat, lastChar := 0, nextChar := 0, inQueue := 0, valid := true,
          exposed := 0 }).respond { status := .ok, opc := 0x00#8, tag := tag, d0 := a }))

/-- RB_PUSH (R122): the byte is stored at the write cursor and nowhere else. -/
def Obligations.RbPushRule : Prop :=
  ∀ (d : Dir) (tag : Tag) (a b : Word) (s : State),
    decode (mkFrame 0x01#8 (selOfDir d) tag a b) [] = .ok (.rbPush d tag a) ∧
    (0xFF#32 < a →
      exec (.rbPush d tag a) s = .next (s.respond { status := .badArgument, opc := 0x01#8, tag := tag })) ∧
    (a ≤ 0xFF#32 → (s.rb d).inQueue = (s.rb d).size →
      exec (.rbPush d tag a) s = .next (s.respond { status := .queueFull, opc := 0x01#8, tag := tag })) ∧
    (a ≤ 0xFF#32 → (s.rb d).inQueue ≠ (s.rb d).size → s.ringOk d →
      ∃ m : Memory,
        exec (.rbPush d tag a) s = .next ((s.setRb d { s.rb d with
          mem := m
          nextChar := if (s.rb d).nextChar + 1 = (s.rb d).size then 0 else (s.rb d).nextChar + 1
          inQueue := (s.rb d).inQueue + 1 }).respond { status := .ok, opc := 0x01#8, tag := tag }) ∧
        m.read (s.rb d).nextChar = a.setWidth 8 ∧
        ∀ i, i ≠ (s.rb d).nextChar → m.read i = (s.rb d).mem.read i)

/-- RB_POP (R123): the storage keeps its bytes. -/
def Obligations.RbPopRule : Prop :=
  ∀ (d : Dir) (tag : Tag) (a b : Word) (s : State),
    decode (mkFrame 0x02#8 (selOfDir d) tag a b) [] = .ok (.rbPop d tag) ∧
    ((s.rb d).inQueue = 0 →
      exec (.rbPop d tag) s = .next (s.respond { status := .queueEmpty, opc := 0x02#8, tag := tag })) ∧
    ((s.rb d).inQueue ≠ 0 → s.ringOk d →
      exec (.rbPop d tag) s = .next ((s.setRb d { s.rb d with
        lastChar := if (s.rb d).lastChar + 1 = (s.rb d).size then 0 else (s.rb d).lastChar + 1
        inQueue := (s.rb d).inQueue - 1
        exposed := 0 }).respond
          { status := .ok, opc := 0x02#8, tag := tag, d0 := ((s.rb d).mem.read (s.rb d).lastChar).setWidth 32 }))

/-- RB_PUSHBULK (R124): the bytes that fit are stored one after the other from the write cursor, across the end of storage
if need be, and nowhere else. -/
def Obligations.RbPushbulkRule : Prop :=
  ∀ (d : Dir) (tag : Tag) (b : Word) (bytes : List Byte) (s : State),
    (payloadFits bytes → decode (mkFrame 0x03#8 (selOfDir d) tag (BitVec.ofNat 32 bytes.length) b) bytes =
      .ok (.rbPushbulk d tag bytes)) ∧
    (s.ringOk d →
      ∃ m : Memory,
        exec (.rbPushbulk d tag bytes) s = .next ((s.setRb d { s.rb d with
          mem := m
          nextChar := ((s.rb d).nextChar + min bytes.length ((s.rb d).size - (s.rb d).inQueue)) % (s.rb d).size
          inQueue := (s.rb d).inQueue + min bytes.length ((s.rb d).size - (s.rb d).inQueue) }).respond
            { status := .ok, opc := 0x03#8, tag := tag,
              d0 := BitVec.ofNat 32 (min bytes.length ((s.rb d).size - (s.rb d).inQueue)) }) ∧
        (∀ k, k < min bytes.length ((s.rb d).size - (s.rb d).inQueue) →
          bytes[k]? = some (m.read (((s.rb d).nextChar + k) % (s.rb d).size))) ∧
        ∀ i, (∀ k, k < min bytes.length ((s.rb d).size - (s.rb d).inQueue) →
            i ≠ ((s.rb d).nextChar + k) % (s.rb d).size) →
          m.read i = (s.rb d).mem.read i)

/-- RB_POPBULK (R125): the oldest bytes leave in order, across the end of storage if need be; the storage keeps its
bytes. -/
def Obligations.RbPopbulkRule : Prop :=
  ∀ (d : Dir) (tag : Tag) (a b : Word) (s : State),
    decode (mkFrame 0x04#8 (selOfDir d) tag a b) [] = .ok (.rbPopbulk d tag a) ∧
    (s.ringOk d →
      exec (.rbPopbulk d tag a) s = .next ((s.setRb d { s.rb d with
        lastChar := ((s.rb d).lastChar + min a.toNat (s.rb d).inQueue) % (s.rb d).size
        inQueue := (s.rb d).inQueue - min a.toNat (s.rb d).inQueue
        exposed := if 0 < min a.toNat (s.rb d).inQueue then 0 else (s.rb d).exposed }).respond
          { status := .ok, opc := 0x04#8, tag := tag, d0 := BitVec.ofNat 32 (min a.toNat (s.rb d).inQueue),
            bytes := (List.range (min a.toNat (s.rb d).inQueue)).map fun k =>
              (s.rb d).mem.read (((s.rb d).lastChar + k) % (s.rb d).size) }))

/-- RB_FREE, RB_USED, RB_CAP and RB_STATUS only answer (R126 to R129), and the words they answer are the exact numbers. -/
def Obligations.RbQueryRules : Prop :=
  ∀ (d : Dir) (tag : Tag) (a b : Word) (s : State),
    (decode (mkFrame 0x05#8 (selOfDir d) tag a b) [] = .ok (.rbFree d tag) ∧
      exec (.rbFree d tag) s = .next (s.respond
        { status := .ok, opc := 0x05#8, tag := tag, d0 := BitVec.ofNat 32 ((s.rb d).size - (s.rb d).inQueue) })) ∧
    (decode (mkFrame 0x06#8 (selOfDir d) tag a b) [] = .ok (.rbUsed d tag) ∧
      exec (.rbUsed d tag) s = .next (s.respond
        { status := .ok, opc := 0x06#8, tag := tag, d0 := BitVec.ofNat 32 (s.rb d).inQueue })) ∧
    (decode (mkFrame 0x07#8 (selOfDir d) tag a b) [] = .ok (.rbCap d tag) ∧
      exec (.rbCap d tag) s = .next (s.respond
        { status := .ok, opc := 0x07#8, tag := tag, d0 := BitVec.ofNat 32 (s.rb d).size })) ∧
    (decode (mkFrame 0x08#8 (selOfDir d) tag a b) [] = .ok (.rbStatus d tag) ∧
      exec (.rbStatus d tag) s = .next (s.respond
        { status := .ok, opc := 0x08#8, tag := tag,
          d0 := if (s.rb d).inQueue = 0 then 1#32 else if (s.rb d).inQueue = (s.rb d).size then 2#32 else 0#32 })) ∧
    (s.params.legal → s.ringOk d →
      (BitVec.ofNat 32 (s.rb d).size).toNat = (s.rb d).size ∧
      (BitVec.ofNat 32 (s.rb d).inQueue).toNat = (s.rb d).inQueue ∧
      (BitVec.ofNat 32 ((s.rb d).size - (s.rb d).inQueue)).toNat + (s.rb d).inQueue = (s.rb d).size)

/-- RB_BEGINDR (R130): the window is shown, nothing is consumed. -/
def Obligations.RbBegindrRule : Prop :=
  ∀ (d : Dir) (tag : Tag) (a b : Word) (s : State) (want toEnd actual : Nat),
    want = min a.toNat (s.rb d).inQueue → toEnd = (s.rb d).size - (s.rb d).lastChar →
    actual = (if toEnd < want then toEnd else want) →
    decode (mkFrame 0x09#8 (selOfDir d) tag a b) [] = .ok (.rbBegindr d tag a) ∧
    (s.ringOk d →
      exec (.rbBegindr d tag a) s = .next ((s.setRb d { s.rb d with exposed := actual }).respond
        { status := .ok, opc := 0x09#8, tag := tag, wrapped := decide (toEnd < want),
          d0 := BitVec.ofNat 32 (s.rb d).lastChar, d1 := BitVec.ofNat 32 actual,
          bytes := (List.range actual).map fun k => (s.rb d).mem.read ((s.rb d).lastChar + k) }))

/-- RB_ENDDR (R131). -/
def Obligations.RbEnddrRule : Prop :=
  ∀ (d : Dir) (tag : Tag) (a b : Word) (s : State),
    decode (mkFrame 0x0A#8 (selOfDir d) tag a b) [] = .ok (.rbEnddr d tag a) ∧
    ((s.rb d).exposed < a.toNat →
      exec (.rbEnddr d tag a) s = .next (s.respond { status := .badArgument, opc := 0x0A#8, tag := tag })) ∧
    (a.toNat ≤ (s.rb d).exposed → a ≠ 0#32 →
      exec (.rbEnddr d tag a) s = .next ((s.setRb d { s.rb d with
        lastChar := if (s.rb d).lastChar + a.toNat = (s.rb d).size then 0 else (s.rb d).lastChar + a.toNat
        inQueue := (s.rb d).inQueue - a.toNat
        exposed := 0 }).respond { status := .ok, opc := 0x0A#8, tag := tag, d0 := a })) ∧
    (a = 0#32 →
      exec (.rbEnddr d tag a) s = .next ((s.setRb d { s.rb d with exposed := 0 }).respond
        { status := .ok, opc := 0x0A#8, tag := tag, d0 := 0#32 }))

/-- RB_CLOSE (R132): the storage bytes keep their values. -/
def Obligations.RbCloseRule : Prop :=
  ∀ (d : Dir) (tag : Tag) (a b : Word) (s : State),
    decode (mkFrame 0x0B#8 (selOfDir d) tag a b) [] = .ok (.rbClose d tag) ∧
    exec (.rbClose d tag) s = .next ((s.setRb d
      { mem := (s.rb d).mem, size := 0, lastChar := 0, nextChar := 0, inQueue := 0, valid := false,
        exposed := 0 }).respond { status := .ok, opc := 0x0B#8, tag := tag })

/-- A ring-buffer operation touches its own ring buffer and sends one response; what it does depends on nothing else
(R120 (a), (c), (d)). -/
def Obligations.RingOperationsAreLocal : Prop :=
  ∀ (i : Instr) (d : Dir) (s t : State), ringDirOf i = some d → exec i s = .next t →
    ∃ b r, t = (s.setRb d b).respond r ∧ r.opc = i.opc ∧ r.tag = i.tag ∧
      ∀ s' : State, s'.rb d = s.rb d → s'.depth d = s.depth d → exec i s' = .next ((s'.setRb d b).respond r)

/-- First in, first out, over every sequence of ring-buffer operations of one direction: no operation stops, used and free
add up to the capacity, the bytes that came out are a prefix of the bytes that went in since the last RB_INIT, and the
invariants hold at the end (R133). Bytes buffered at the start count as accepted. -/
def Obligations.RingBufferIsFifo : Prop :=
  ∀ (d : Dir) (is : List Instr) (s : State), s.params.legal → s.ringOk d → (∀ i ∈ is, ringDirOf i = some d) →
    ∃ t l, runRing d is s { accepted := (s.rb d).contents, delivered := [] } = some (t, l) ∧
      l.delivered <+: l.accepted ∧
      (t.rb d).inQueue ≤ (t.rb d).size ∧ (t.rb d).inQueue + ((t.rb d).size - (t.rb d).inQueue) = (t.rb d).size ∧
      t.ringOk d

/-- Direct read equals bulk pop (R134): RB_BEGINDR and RB_ENDDR of the whole window leave the state and deliver the bytes of
an RB_POPBULK of that size, but for `Exposed` when the window is empty; and after a window that wrapped, a second direct
read shows exactly the remainder from index 0. -/
def Obligations.DirectReadEqualsBulkPop : Prop :=
  ∀ (d : Dir) (g1 g2 g3 g4 : Tag) (a : Word) (s : State), s.params.legal → s.ringOk d →
    ∃ s1 s2 u r1 r3, exec (.rbBegindr d g1 a) s = .next s1 ∧ s1.lastAnswer = some r1 ∧
      exec (.rbEnddr d g2 r1.d1) s1 = .next s2 ∧ exec (.rbPopbulk d g3 r1.d1) s = .next u ∧ u.lastAnswer = some r3 ∧
      r1.bytes = r3.bytes ∧ r3.d0 = r1.d1 ∧
      ({ s2 with outH := s.outH, outW := s.outW } : State) =
        (if r1.d1 = 0#32 then ({ u with outH := s.outH, outW := s.outW } : State).setRb d { u.rb d with exposed := 0 }
          else { u with outH := s.outH, outW := s.outW }) ∧
      (r1.wrapped = true →
        ∃ s3 r4, exec (.rbBegindr d g4 (BitVec.ofNat 32 (min a.toNat (s.rb d).inQueue) - r1.d1)) s2 = .next s3 ∧
          s3.lastAnswer = some r4 ∧ r4.d0 = 0#32 ∧ r4.wrapped = false ∧
          r4.d1.toNat = min a.toNat (s.rb d).inQueue - r1.d1.toNat)

/-! ### The state word and the line -/

/-- `ChangeState` and the `WakeAll` inside it (R150, R151). -/
def Obligations.ChangeStateRule : Prop :=
  ∀ (s : State) (newBits mask new delta : Word),
    new = (s.line &&& ~~~mask) ||| (newBits &&& mask) → delta = s.line ^^^ new →
    s.changeState newBits mask =
      { s with
        line := new
        watchMask := if delta &&& s.watchMask ≠ 0#32 then 0#32 else s.watchMask
        slots := if delta &&& s.watchMask ≠ 0#32 then s.slots.map (Option.map fun x => { x with awake := true })
          else s.slots
        outN := if delta ≠ 0#32 then s.outN ++ [.stateChanged new] else s.outN }

/-- The fold: the eight queue bits of the live counters and thresholds (R261), written through `ChangeState` (R260). The bits
are a function of those registers alone; a second fold changes nothing and sends nothing; after a fold the queue bits of
`State` are those of the counters. The bits are those of the pseudocode of R261 for a closed buffer too: that such a buffer
has `LOW` set when its low threshold is above 0 is the model's reading (log entry 23), against the words of R262 (b). -/
def Obligations.FoldRule : Prop :=
  (∀ s : State,
    s.fold = s.changeState s.queueBits 0x07878000#32 ∧
    s.queueBits =
      (((if s.tx.size - s.tx.inQueue = 0 then 0x00800000#32 else if s.tx.inQueue = 0 then 0x04000000#32 else 0#32) |||
          (if s.tx.inQueue < s.wmTx.lowWater then 0x02000000#32 else 0#32) |||
          (if s.tx.inQueue > s.wmTx.highWater then 0x01000000#32 else 0#32)) |||
        ((if s.rx.size - s.rx.inQueue = 0 then 0x00008000#32 else if s.rx.inQueue = 0 then 0x00040000#32 else 0#32) |||
          (if s.rx.inQueue < s.wmRx.lowWater then 0x00020000#32 else 0#32) |||
          (if s.rx.inQueue > s.wmRx.highWater then 0x00010000#32 else 0#32)))) ∧
  (∀ s t : State, t.rx.inQueue = s.rx.inQueue → t.rx.size = s.rx.size → t.tx.inQueue = s.tx.inQueue →
    t.tx.size = s.tx.size → t.wmRx = s.wmRx → t.wmTx = s.wmTx → t.queueBits = s.queueBits) ∧
  ∀ s : State, s.fold.fold = s.fold ∧ s.fold.line &&& 0x07878000#32 = s.fold.queueBits

/-- The queue bits by occupancy (R262). First, those of the RX direction of a line whose buffer has the size of the last
acquisition ((a), (c), (d)). Then those of a closed buffer, in either direction: `FULL`, not `EMPTY`, `HIGH` clear ((b)). That
its `LOW` is clear exactly when its low threshold is 0 is the model's reading, by the pseudocode of R261 and against the words
of R262 (b), which have it clear always (log entry 23). -/
def Obligations.QueueBitsByOccupancy : Prop :=
  (∀ (s : State) (n h l : Nat), 1 ≤ n → s.rx.size = n → s.rx.inQueue ≤ n → h = 2 * n / 3 → l = h / 2 →
    s.wmRx = { bufferSize := n, highWater := h, lowWater := l } →
    (hasBit s.queueBits 0x00008000#32 ↔ s.rx.inQueue = n) ∧
    (hasBit s.queueBits 0x00040000#32 ↔ s.rx.inQueue = 0) ∧
    (hasBit s.queueBits 0x00020000#32 ↔ s.rx.inQueue < l) ∧
    (hasBit s.queueBits 0x00010000#32 ↔ h < s.rx.inQueue) ∧
    ¬ (hasBit s.queueBits 0x00008000#32 ∧ hasBit s.queueBits 0x00040000#32) ∧
    ¬ (hasBit s.queueBits 0x00020000#32 ∧ hasBit s.queueBits 0x00010000#32) ∧
    (s.rx.inQueue = n → hasBit s.queueBits 0x00010000#32) ∧
    (s.rx.inQueue = 0 → (hasBit s.queueBits 0x00020000#32 ↔ 3 ≤ n))) ∧
  ∀ s : State,
    (s.rx.closedOk →
      hasBit s.queueBits 0x00008000#32 ∧ ¬ hasBit s.queueBits 0x00040000#32 ∧ ¬ hasBit s.queueBits 0x00010000#32 ∧
        (hasBit s.queueBits 0x00020000#32 ↔ 0 < s.wmRx.lowWater)) ∧
    (s.tx.closedOk →
      hasBit s.queueBits 0x00800000#32 ∧ ¬ hasBit s.queueBits 0x04000000#32 ∧ ¬ hasBit s.queueBits 0x01000000#32 ∧
        (hasBit s.queueBits 0x02000000#32 ↔ 0 < s.wmTx.lowWater))

/-- ACQUIRE (R152) and the acquisition (R153), the cases in the order they are tested. -/
def Obligations.AcquireRule : Prop :=
  ∀ (blocking : Bool) (tag : Tag) (a b : Word) (s t : State),
    t = ({ s with
      bank := { baudRate := 9600#32, charLength := 8#8, stopBits := 2#8, txParity := 1#8, rxParity := 0#8,
                xonByte := 0x11#8, xoffByte := 0x13#8, specialChars := 0#256, minLatency := false,
                dataLatency := 0#32, charLatency := 0#32, flowControlMode := 0#32, flowRuntime := 1#8,
                rxProto := 0#8, txProto := 0#8 }
      rx := { mem := s.rx.mem, size := s.params.depthRx, lastChar := 0, nextChar := 0, inQueue := 0, valid := true,
              exposed := 0 }
      tx := { mem := s.tx.mem, size := s.params.depthTx, lastChar := 0, nextChar := 0, inQueue := 0, valid := true,
              exposed := 0 }
      wmRx := { bufferSize := s.params.depthRx, highWater := 2 * s.params.depthRx / 3,
                lowWater := 2 * s.params.depthRx / 3 / 2 }
      wmTx := { bufferSize := s.params.depthTx, highWater := 2 * s.params.depthTx / 3,
                lowWater := 2 * s.params.depthTx / 3 / 2 } } : State).changeState
        (0xA0200000#32 ||| 0x04040000#32 |||
          (if 0 < 2 * s.params.depthTx / 3 / 2 then 0x02000000#32 else 0#32) |||
          (if 0 < 2 * s.params.depthRx / 3 / 2 then 0x00020000#32 else 0#32)) 0xFFFFFFFF#32 →
    decode (mkFrame 0x10#8 (if blocking then 0x01#8 else 0x00#8) tag a b) [] = .ok (.acquire blocking tag) ∧
    (s.terminating = true →
      exec (.acquire blocking tag) s = .next (s.respond { status := .offline, opc := 0x10#8, tag := tag })) ∧
    (s.terminating = false → ¬ hasBit s.line 0x80000000#32 → s.params.legal →
      exec (.acquire blocking tag) s =
        .next (t.respond { status := .ok, opc := 0x10#8, tag := tag, d0 := t.line &&& 0xE7A7801E#32 })) ∧
    (s.terminating = false → hasBit s.line 0x80000000#32 → blocking = false →
      exec (.acquire blocking tag) s = .next (s.respond { status := .exclusiveAccess, opc := 0x10#8, tag := tag })) ∧
    (s.terminating = false → hasBit s.line 0x80000000#32 → blocking = true →
      ¬ (tag.toNat < s.params.nwatch ∧ s.slot tag.toNat = none) →
      exec (.acquire blocking tag) s = .next (s.respond { status := .badArgument, opc := 0x10#8, tag := tag })) ∧
    (s.terminating = false → hasBit s.line 0x80000000#32 → blocking = true →
      tag.toNat < s.params.nwatch → s.slot tag.toNat = none →
      exec (.acquire blocking tag) s = .next { s with
        slots := s.slots.set tag.toNat (some { kind := .acq, target := 0#32, mask := 0x80000000#32, auto := false,
                                               awake := false, port := s.issuer })
        watchMask := s.watchMask ||| 0x80000000#32 })

/-- RELEASE (R155), the cases in the order they are tested: the whole state word is cleared, nothing else is touched but what
a change of state wakes. -/
def Obligations.ReleaseRule : Prop :=
  ∀ (tag : Tag) (a b : Word) (s : State),
    decode (mkFrame 0x11#8 0x00#8 tag a b) [] = .ok (.release tag) ∧
    (s.terminating = true →
      exec (.release tag) s = .next (s.respond { status := .offline, opc := 0x11#8, tag := tag })) ∧
    (s.terminating = false → ¬ hasBit s.line 0x80000000#32 →
      exec (.release tag) s = .next (s.respond { status := .notOpen, opc := 0x11#8, tag := tag })) ∧
    (s.terminating = false → hasBit s.line 0x80000000#32 →
      exec (.release tag) s = .next (({ s with
        line := 0#32
        watchMask := if s.line &&& s.watchMask ≠ 0#32 then 0#32 else s.watchMask
        slots := if s.line &&& s.watchMask ≠ 0#32 then s.slots.map (Option.map fun x => { x with awake := true })
          else s.slots
        outN := s.outN ++ [.stateChanged 0#32] } : State).respond { status := .ok, opc := 0x11#8, tag := tag }))

/-- The two commands that fold: LRESET (R156) empties both buffers, keeping their size and their storage, and then folds;
GETSTATE (R160) folds and answers the visible bits. Neither has a precondition. -/
def Obligations.LineResetAndGetStateRules : Prop :=
  ∀ (tag : Tag) (a b : Word) (s : State),
    (decode (mkFrame 0x12#8 0x00#8 tag a b) [] = .ok (.lreset tag) ∧
      exec (.lreset tag) s = .next ((({ s with
        rx := { s.rx with lastChar := 0, nextChar := 0, inQueue := 0, exposed := 0 }
        tx := { s.tx with lastChar := 0, nextChar := 0, inQueue := 0, exposed := 0 } } : State).fold).respond
          { status := .ok, opc := 0x12#8, tag := tag })) ∧
    (decode (mkFrame 0x14#8 0x00#8 tag a b) [] = .ok (.getstate tag) ∧
      exec (.getstate tag) s = .next (s.fold.respond
        { status := .ok, opc := 0x14#8, tag := tag, d0 := s.fold.line &&& 0xE7A7801E#32 }))

/-- SETSTATE (R158), the cases in the order they are tested: a bit that flow control drives is dropped from the mask. -/
def Obligations.SetStateRule : Prop :=
  ∀ (tag : Tag) (a b : Word) (s : State),
    decode (mkFrame 0x13#8 0x00#8 tag a b) [] = .ok (.setstate tag a b) ∧
    (b &&& (0x80000000#32 ||| 0x40000000#32 ||| ~~~0x2020001E#32) ≠ 0#32 →
      exec (.setstate tag a b) s = .next (s.respond { status := .badArgument, opc := 0x13#8, tag := tag })) ∧
    (b &&& (0x80000000#32 ||| 0x40000000#32 ||| ~~~0x2020001E#32) = 0#32 → ¬ hasBit s.line 0x80000000#32 →
      exec (.setstate tag a b) s = .next (s.respond { status := .notOpen, opc := 0x13#8, tag := tag })) ∧
    (b &&& (0x80000000#32 ||| 0x40000000#32 ||| ~~~0x2020001E#32) = 0#32 → hasBit s.line 0x80000000#32 →
      exec (.setstate tag a b) s = .next
        ((s.changeState a (b &&& ~~~(s.bank.flowControlMode &&& 0x0000001C#32))).respond
          { status := .ok, opc := 0x13#8, tag := tag }))

/-- WATCHSTATE (R163) with the test of R162, the cases in the order they are tested. `auto` holds exactly when the mask lacks
`ACTIVE`. -/
def Obligations.WatchStateRule : Prop :=
  ∀ (tag : Tag) (a b : Word) (s : State) (auto : Bool), auto = decide (b &&& 0x40000000#32 = 0#32) →
    decode (mkFrame 0x15#8 0x00#8 tag a b) [] = .ok (.watchstate tag a b) ∧
    (s.terminating = true →
      exec (.watchstate tag a b) s = .next (s.respond { status := .offline, opc := 0x15#8, tag := tag })) ∧
    (s.terminating = false → ¬ hasBit s.line 0x80000000#32 →
      exec (.watchstate tag a b) s = .next (s.respond { status := .notOpen, opc := 0x15#8, tag := tag })) ∧
    (s.terminating = false → hasBit s.line 0x80000000#32 → auto = true → ¬ hasBit s.line 0x40000000#32 →
      exec (.watchstate tag a b) s = .next (s.respond
        { status := .ioError, opc := 0x15#8, tag := tag, d0 := s.line &&& 0xE7A7801E#32 })) ∧
    (s.terminating = false → hasBit s.line 0x80000000#32 → ¬ (auto = true ∧ ¬ hasBit s.line 0x40000000#32) →
      (s.line ^^^ a) &&& b = 0#32 →
      exec (.watchstate tag a b) s = .next (s.respond
        { status := .ok, opc := 0x15#8, tag := tag, d0 := s.line &&& 0xE7A7801E#32 })) ∧
    (s.terminating = false → hasBit s.line 0x80000000#32 → ¬ (auto = true ∧ ¬ hasBit s.line 0x40000000#32) →
      (s.line ^^^ a) &&& b ≠ 0#32 → ¬ (tag.toNat < s.params.nwatch ∧ s.slot tag.toNat = none) →
      exec (.watchstate tag a b) s = .next (s.respond { status := .badArgument, opc := 0x15#8, tag := tag })) ∧
    (s.terminating = false → hasBit s.line 0x80000000#32 → ¬ (auto = true ∧ ¬ hasBit s.line 0x40000000#32) →
      (s.line ^^^ a) &&& b ≠ 0#32 → tag.toNat < s.params.nwatch → s.slot tag.toNat = none →
      exec (.watchstate tag a b) s = .next { s with
        slots := s.slots.set tag.toNat (some { kind := .watch, target := a, mask := b, auto := auto, awake := false,
                                               port := s.issuer })
        watchMask := s.watchMask ||| b ||| (if auto then 0x40000000#32 else 0#32) })

/-- The re-test step of a woken wait (R166): completed on the port that parked it with the live state, or put back to sleep
with its interest watched again; a parked ACQUIRE that finds the line free acquires it, its slot freed first. A slot that
is free or asleep has no step. -/
def Obligations.RetestRule : Prop :=
  ∀ (s : State) (w : Nat),
    ((∀ x, s.slot w = some x → x.awake = false) → takeTurn (.retest w) s = .next s) ∧
    ∀ x, s.slot w = some x → x.awake = true →
      (x.kind = .watch → x.auto = true → ¬ hasBit s.line 0x40000000#32 →
        takeTurn (.retest w) s = .next (({ s with slots := s.slots.set w none } : State).send x.port
          { status := .ioError, opc := 0x15#8, tag := BitVec.ofNat 8 w, d0 := s.line &&& 0xE7A7801E#32 })) ∧
      (x.kind = .watch → ¬ (x.auto = true ∧ ¬ hasBit s.line 0x40000000#32) → (s.line ^^^ x.target) &&& x.mask = 0#32 →
        takeTurn (.retest w) s = .next (({ s with slots := s.slots.set w none } : State).send x.port
          { status := .ok, opc := 0x15#8, tag := BitVec.ofNat 8 w, d0 := s.line &&& 0xE7A7801E#32 })) ∧
      (x.kind = .watch → ¬ (x.auto = true ∧ ¬ hasBit s.line 0x40000000#32) → (s.line ^^^ x.target) &&& x.mask ≠ 0#32 →
        takeTurn (.retest w) s = .next { s with
          slots := s.slots.set w (some { x with awake := false })
          watchMask := s.watchMask ||| (x.mask ||| if x.auto then 0x40000000#32 else 0#32) }) ∧
      (x.kind = .acq → ¬ hasBit s.line 0x80000000#32 →
        ∃ t, t = ({ s with slots := s.slots.set w none } : State).acquisition ∧
          takeTurn (.retest w) s = .next (t.send x.port
            { status := .ok, opc := 0x10#8, tag := BitVec.ofNat 8 w, d0 := t.line &&& 0xE7A7801E#32 })) ∧
      (x.kind = .acq → x.ok → hasBit s.line 0x80000000#32 →
        takeTurn (.retest w) s = .next { s with
          slots := s.slots.set w (some { x with awake := false })
          watchMask := s.watchMask ||| 0x80000000#32 })

/-- CANCELWAIT (R168): the parked command's own answer, the broadcast, and the CANCELWAIT's answer. -/
def Obligations.CancelWaitRule : Prop :=
  ∀ (tag : Tag) (a b : Word) (s : State),
    decode (mkFrame 0x16#8 0x00#8 tag a b) [] = .ok (.cancelwait tag) ∧
    (s.params.nwatch ≤ tag.toNat ∨ s.slot tag.toNat = none →
      exec (.cancelwait tag) s = .next (s.respond { status := .badArgument, opc := 0x16#8, tag := tag })) ∧
    ∀ x, tag.toNat < s.params.nwatch → s.slot tag.toNat = some x →
      exec (.cancelwait tag) s = .next ((({ s with
        watchMask := 0#32
        slots := (s.slots.set tag.toNat none).map (Option.map fun y => { y with awake := true }) } : State).send x.port
          { status := .cancelled, opc := if x.kind = .watch then 0x15#8 else 0x10#8, tag := tag, d0 := 0#32 }).respond
            { status := .ok, opc := 0x16#8, tag := tag })

/-- TERMINATE (R170): the flag set, every slot freed, the mask cleared, every parked command answered Offline on its own
port and then the TERMINATE answered. The rule gives the completions no order and the statement claims none. -/
def Obligations.TerminateRule : Prop :=
  ∀ (tag : Tag) (a b : Word) (s : State),
    decode (mkFrame 0x17#8 0x00#8 tag a b) [] = .ok (.terminate tag) ∧
    ∃ doneH doneW, doneH.Perm (offlineAnswers .H 0 s.slots) ∧ doneW.Perm (offlineAnswers .W 0 s.slots) ∧
      exec (.terminate tag) s = .next (({ s with
        terminating := true
        slots := s.slots.map fun _ => none
        watchMask := 0#32
        outH := s.outH ++ doneH
        outW := s.outW ++ doneW } : State).respond { status := .ok, opc := 0x17#8, tag := tag })

/-- SNAPSHOT (R172) sends one ConfigSnapshot of the bank and answers; ENQ_TX (R269) accepts zero bytes and changes
nothing. -/
def Obligations.SnapshotAndEnqTxRules : Prop :=
  ∀ (tag : Tag) (a b : Word) (bytes : List Byte) (s : State),
    (decode (mkFrame 0x18#8 0x00#8 tag a b) [] = .ok (.snapshot tag) ∧
      exec (.snapshot tag) s = .next ((s.notify (.configSnapshot
        { charLength := s.bank.charLength, stopBits := s.bank.stopBits, txParity := s.bank.txParity,
          rxParity := s.bank.rxParity, baudRate := s.bank.baudRate, minLatency := s.bank.minLatency,
          xonByte := s.bank.xonByte, xoffByte := s.bank.xoffByte, flowControlMode := s.bank.flowControlMode,
          flowRuntime := s.bank.flowRuntime, rxProto := s.bank.rxProto, txProto := s.bank.txProto })).respond
        { status := .ok, opc := 0x18#8, tag := tag })) ∧
    (payloadFits bytes → decode (mkFrame 0x22#8 0x00#8 tag (BitVec.ofNat 32 bytes.length) b) bytes =
      .ok (.enqTx tag bytes)) ∧
    exec (.enqTx tag bytes) s = .next (s.respond { status := .ok, opc := 0x22#8, tag := tag, d0 := 0#32 })

/-! ### Transfers -/

/-- ENQ_RX (R263, R264, R72): accepted, it occupies the record of its port (that the acceptance is a step before T1 is the
model's reading, log entry 12); T1 copies as RB_PUSHBULK does and answers nothing; T2 folds and answers. -/
def Obligations.EnqRxRule : Prop :=
  (∀ (tag : Tag) (b : Word) (bytes : List Byte), payloadFits bytes →
    decode (mkFrame 0x20#8 0x00#8 tag (BitVec.ofNat 32 bytes.length) b) bytes = .ok (.enqRx tag bytes)) ∧
  (∀ (tag : Tag) (bytes : List Byte) (s : State), exec (.enqRx tag bytes) s = .next (s.setXfer s.issuer (.copy
    { op := .enqRx, tag := tag, a := BitVec.ofNat 32 bytes.length, b := 0#32, payload := bytes }))) ∧
  (∀ (s : State) (p : Port) (job : XferJob), s.xfer p = .copy job → job.op = .enqRx → s.ringOk .rx →
    ∃ m : Memory,
      takeTurn (.transfer p) s = .next (({ s with rx := { s.rx with
        mem := m
        nextChar := (s.rx.nextChar + min job.payload.length (s.rx.size - s.rx.inQueue)) % s.rx.size
        inQueue := s.rx.inQueue + min job.payload.length (s.rx.size - s.rx.inQueue) } } : State).setXfer p
          (.fold job (min job.payload.length (s.rx.size - s.rx.inQueue)) [])) ∧
      (∀ k, k < min job.payload.length (s.rx.size - s.rx.inQueue) →
        job.payload[k]? = some (m.read ((s.rx.nextChar + k) % s.rx.size))) ∧
      ∀ i, (∀ k, k < min job.payload.length (s.rx.size - s.rx.inQueue) → i ≠ (s.rx.nextChar + k) % s.rx.size) →
        m.read i = s.rx.mem.read i) ∧
  ∀ (s : State) (p : Port) (job : XferJob) (n : Nat) (moved : List Byte),
    s.xfer p = .fold job n moved → job.op = .enqRx →
    takeTurn (.transfer p) s = .next (((s.setXfer p .idle).fold).send p
      { status := .ok, opc := 0x20#8, tag := job.tag, d0 := BitVec.ofNat 32 n, bytes := moved })

/-- DEQ_RX (R266, R264, R72): T0 validates and occupies the record of its port; T1 copies as RB_POPBULK does and answers
nothing; T2 folds and answers with the bytes. `ACTIVE` is tested in T0 only. -/
def Obligations.DeqRxRule : Prop :=
  (∀ (tag : Tag) (a b : Word) (s : State),
    decode (mkFrame 0x21#8 0x00#8 tag a b) [] = .ok (.deqRx tag a b) ∧
    (a < b → exec (.deqRx tag a b) s = .next (s.respond { status := .badArgument, opc := 0x21#8, tag := tag })) ∧
    (b ≤ a → ¬ hasBit s.line 0x40000000#32 →
      exec (.deqRx tag a b) s = .next (s.respond { status := .notOpen, opc := 0x21#8, tag := tag })) ∧
    (b ≤ a → hasBit s.line 0x40000000#32 →
      exec (.deqRx tag a b) s =
        .next (s.setXfer s.issuer (.copy { op := .deqRx, tag := tag, a := a, b := b, payload := [] })))) ∧
  (∀ (s : State) (p : Port) (job : XferJob), s.xfer p = .copy job → job.op = .deqRx → s.ringOk .rx →
    takeTurn (.transfer p) s = .next (({ s with rx := { s.rx with
      lastChar := (s.rx.lastChar + min job.a.toNat s.rx.inQueue) % s.rx.size
      inQueue := s.rx.inQueue - min job.a.toNat s.rx.inQueue
      exposed := if 0 < min job.a.toNat s.rx.inQueue then 0 else s.rx.exposed } } : State).setXfer p
        (.fold job (min job.a.toNat s.rx.inQueue)
          ((List.range (min job.a.toNat s.rx.inQueue)).map fun k =>
            s.rx.mem.read ((s.rx.lastChar + k) % s.rx.size))))) ∧
  ∀ (s : State) (p : Port) (job : XferJob) (n : Nat) (moved : List Byte),
    s.xfer p = .fold job n moved → job.op = .deqRx →
    takeTurn (.transfer p) s = .next (((s.setXfer p .idle).fold).send p
      { status := .ok, opc := 0x21#8, tag := job.tag, d0 := BitVec.ofNat 32 n, bytes := moved })

/-- Order and conservation through the copy steps (R270): what an ENQ_RX accepts is appended to the buffered bytes, what a
DEQ_RX delivers is taken from their front. -/
def Obligations.TransfersKeepByteOrder : Prop :=
  ∀ (s t : State) (p : Port) (job : XferJob), s.ringOk .rx → s.xfer p = .copy job →
    takeTurn (.transfer p) s = .next t →
    ∃ n moved, t.xfer p = .fold job n moved ∧ t.ringOk .rx ∧
      (job.op = .enqRx → moved = [] ∧ n = min job.payload.length (s.rx.size - s.rx.inQueue) ∧
        t.rx.contents = s.rx.contents ++ job.payload.take n) ∧
      (job.op = .deqRx → n = moved.length ∧ n = min job.a.toNat s.rx.inQueue ∧
        s.rx.contents = moved ++ t.rx.contents)

/-! ### Configuration events -/

/-- Every EXEC on a line that is not acquired is answered NotOpen and writes nothing (R190). -/
def Obligations.EventsNeedAcquisition : Prop :=
  ∀ (i : Instr) (s : State), i.opc = 0x30#8 → ¬ hasBit s.line 0x80000000#32 →
    exec i s = .next (s.respond { status := .notOpen, opc := 0x30#8, tag := i.tag })

/-- EXEC EV_ACTIVE (R191) on an acquired line. -/
def Obligations.ActivationRule : Prop :=
  ∀ (tag : Tag) (a b : Word) (s : State),
    decode (mkFrame 0x30#8 0x00#8 tag a b) [] = .ok (.execEvActive tag a) ∧
    (hasBit s.line 0x80000000#32 → a ≠ 0#32 → ¬ hasBit s.line 0x40000000#32 →
      exec (.execEvActive tag a) s = .next ((({ s with
        bank := { baudRate := 9600#32, charLength := 8#8, stopBits := 2#8, txParity := 1#8, rxParity := 0#8,
                  xonByte := 0x11#8, xoffByte := 0x13#8, specialChars := 0#256, minLatency := false,
                  dataLatency := 0#32, charLatency := 0#32, flowControlMode := 0#32, flowRuntime := 1#8,
                  rxProto := 0#8, txProto := 0#8 } } : State).changeState 0x40000000#32 0x40000000#32).eventDone tag)) ∧
    (hasBit s.line 0x80000000#32 → a ≠ 0#32 → hasBit s.line 0x40000000#32 →
      exec (.execEvActive tag a) s = .next (s.eventDone tag)) ∧
    (hasBit s.line 0x80000000#32 → a = 0#32 →
      exec (.execEvActive tag a) s = .next ((s.changeState 0#32 0x40000000#32).eventDone tag))

/-- EXEC of the five framing kinds (R192 to R196) on an acquired line: the register written for a legal value, BadArgument
and nothing written for any other. -/
def Obligations.FramingEventRules : Prop :=
  ∀ (tag : Tag) (a b : Word) (s : State),
    (decode (mkFrame 0x30#8 0x01#8 tag a b) [] = .ok (.execEvDataRate tag a) ∧
      decode (mkFrame 0x30#8 0x02#8 tag a b) [] = .ok (.execEvDataSize tag a) ∧
      decode (mkFrame 0x30#8 0x03#8 tag a b) [] = .ok (.execEvStopBits tag a) ∧
      decode (mkFrame 0x30#8 0x04#8 tag a b) [] = .ok (.execEvTxParity tag a) ∧
      decode (mkFrame 0x30#8 0x05#8 tag a b) [] = .ok (.execEvRxParity tag a)) ∧
    (hasBit s.line 0x80000000#32 →
      exec (.execEvDataRate tag a) s =
        (if s.params.minBaud ≤ a.toNat ∧ a.toNat ≤ s.params.maxBaud then
          .next (({ s with bank := { s.bank with baudRate := a } } : State).eventDone tag)
        else .next (s.eventRefused tag .badArgument)) ∧
      exec (.execEvDataSize tag a) s =
        (if 5 ≤ a.toNat ∧ a.toNat ≤ 8 then
          .next (({ s with bank := { s.bank with charLength := a.setWidth 8 } } : State).eventDone tag)
        else .next (s.eventRefused tag .badArgument)) ∧
      exec (.execEvStopBits tag a) s =
        (if a.toNat ≤ 20 then
          .next (({ s with bank := { s.bank with stopBits := a.setWidth 8 } } : State).eventDone tag)
        else .next (s.eventRefused tag .badArgument)) ∧
      exec (.execEvTxParity tag a) s =
        (if 1 ≤ a.toNat ∧ a.toNat ≤ 5 then
          .next (({ s with bank := { s.bank with txParity := a.setWidth 8 } } : State).eventDone tag)
        else .next (s.eventRefused tag .badArgument)) ∧
      exec (.execEvRxParity tag a) s =
        (if a.toNat = 0 ∨ a.toNat = 6 then
          .next (({ s with bank := { s.bank with rxParity := a.setWidth 8 } } : State).eventDone tag)
        else .next (s.eventRefused tag .badArgument)))

/-- EXEC of the XON and XOFF bytes and of the two special-character kinds (R197 to R200) on an acquired line: one entry of
the table changes, every other keeps its value. -/
def Obligations.ByteEventRules : Prop :=
  ∀ (tag : Tag) (a b : Word) (s : State),
    (decode (mkFrame 0x30#8 0x06#8 tag a b) [] = .ok (.execEvXonByte tag a) ∧
      decode (mkFrame 0x30#8 0x07#8 tag a b) [] = .ok (.execEvXoffByte tag a) ∧
      decode (mkFrame 0x30#8 0x08#8 tag a b) [] = .ok (.execEvSpecialByte tag a) ∧
      decode (mkFrame 0x30#8 0x09#8 tag a b) [] = .ok (.execEvValidDataByte tag a)) ∧
    (hasBit s.line 0x80000000#32 → 0xFF#32 < a →
      exec (.execEvXonByte tag a) s = .next (s.eventRefused tag .badArgument) ∧
      exec (.execEvXoffByte tag a) s = .next (s.eventRefused tag .badArgument) ∧
      exec (.execEvSpecialByte tag a) s = .next (s.eventRefused tag .badArgument) ∧
      exec (.execEvValidDataByte tag a) s = .next (s.eventRefused tag .badArgument)) ∧
    (hasBit s.line 0x80000000#32 → a ≤ 0xFF#32 →
      exec (.execEvXonByte tag a) s =
        .next (({ s with bank := { s.bank with xonByte := a.setWidth 8 } } : State).eventDone tag) ∧
      exec (.execEvXoffByte tag a) s =
        .next (({ s with bank := { s.bank with xoffByte := a.setWidth 8 } } : State).eventDone tag) ∧
      (∃ table : BitVec 256,
        exec (.execEvSpecialByte tag a) s =
          .next (({ s with bank := { s.bank with specialChars := table } } : State).eventDone tag) ∧
        ∀ c, c < 256 → table.getLsbD c = if c = a.toNat then true else s.bank.specialChars.getLsbD c) ∧
      ∃ table : BitVec 256,
        exec (.execEvValidDataByte tag a) s =
          .next (({ s with bank := { s.bank with specialChars := table } } : State).eventDone tag) ∧
        ∀ c, c < 256 → table.getLsbD c = if c = a.toNat then false else s.bank.specialChars.getLsbD c)

/-- EXEC of the three latency kinds (R201 to R203), of the flow-control mode (R204) and of the line break (R205) on an
acquired line. -/
def Obligations.LatencyFlowAndBreakEventRules : Prop :=
  ∀ (tag : Tag) (a b : Word) (s : State),
    (decode (mkFrame 0x30#8 0x0A#8 tag a b) [] = .ok (.execEvMinLatency tag a) ∧
      decode (mkFrame 0x30#8 0x0B#8 tag a b) [] = .ok (.execEvDataLatency tag a) ∧
      decode (mkFrame 0x30#8 0x0C#8 tag a b) [] = .ok (.execEvCharLatency tag a) ∧
      decode (mkFrame 0x30#8 0x0D#8 tag a b) [] = .ok (.execEvFlowControl tag a) ∧
      decode (mkFrame 0x30#8 0x0E#8 tag a b) [] = .ok (.execEvLineBreak tag a)) ∧
    (hasBit s.line 0x80000000#32 →
      exec (.execEvMinLatency tag a) s =
        .next (({ s with bank := { s.bank with minLatency := decide (a ≠ 0#32) } } : State).eventDone tag) ∧
      exec (.execEvDataLatency tag a) s =
        .next (({ s with bank := { s.bank with dataLatency := a } } : State).eventDone tag) ∧
      exec (.execEvCharLatency tag a) s =
        .next (({ s with bank := { s.bank with charLatency := a } } : State).eventDone tag) ∧
      exec (.execEvFlowControl tag a) s =
        (if a &&& ~~~0x001E001C#32 = 0#32 then
          .next (({ s with bank := { s.bank with flowControlMode := a } } : State).eventDone tag)
        else .next (s.eventRefused tag .badArgument)) ∧
      exec (.execEvLineBreak tag a) s =
        .next ((s.changeState (if a ≠ 0#32 then 0x00000002#32 else 0#32) 0x00000002#32).eventDone tag))

/-- EXEC of the six queue kinds (R206 to R211) on an acquired line: accepted for any operand, nothing is written, one
ConfigSnapshot is sent. -/
def Obligations.QueueEventsAreNoOps : Prop :=
  ∀ (tag : Tag) (a b : Word) (s : State),
    (decode (mkFrame 0x30#8 0x10#8 tag a b) [] = .ok (.execEvRxqSize tag a) ∧
      decode (mkFrame 0x30#8 0x11#8 tag a b) [] = .ok (.execEvTxqSize tag a) ∧
      decode (mkFrame 0x30#8 0x12#8 tag a b) [] = .ok (.execEvRxqHighWater tag a) ∧
      decode (mkFrame 0x30#8 0x13#8 tag a b) [] = .ok (.execEvRxqLowWater tag a) ∧
      decode (mkFrame 0x30#8 0x14#8 tag a b) [] = .ok (.execEvTxqHighWater tag a) ∧
      decode (mkFrame 0x30#8 0x15#8 tag a b) [] = .ok (.execEvTxqLowWater tag a)) ∧
    (hasBit s.line 0x80000000#32 →
      exec (.execEvRxqSize tag a) s = .next (s.eventDone tag) ∧
      exec (.execEvTxqSize tag a) s = .next (s.eventDone tag) ∧
      exec (.execEvRxqHighWater tag a) s = .next (s.eventDone tag) ∧
      exec (.execEvRxqLowWater tag a) s = .next (s.eventDone tag) ∧
      exec (.execEvTxqHighWater tag a) s = .next (s.eventDone tag) ∧
      exec (.execEvTxqLowWater tag a) s = .next (s.eventDone tag))

/-! ### Read-back -/

/-- REQ of activation, framing, the software flow-control bytes and the two kinds that cannot be read (R231 to R240): the
answer alone, in every state (R230). -/
def Obligations.LineAndFramingReadBackRules : Prop :=
  ∀ (tag : Tag) (a b : Word) (s : State),
    (decode (mkFrame 0x31#8 0x00#8 tag a b) [] = .ok (.reqEvActive tag) ∧
      exec (.reqEvActive tag) s = .next (s.respond
        { status := .ok, opc := 0x31#8, tag := tag, d0 := if hasBit s.line 0x40000000#32 then 1#32 else 0#32 })) ∧
    (decode (mkFrame 0x31#8 0x01#8 tag a b) [] = .ok (.reqEvDataRate tag) ∧
      exec (.reqEvDataRate tag) s = .next (s.respond
        { status := .ok, opc := 0x31#8, tag := tag, d0 := s.bank.baudRate })) ∧
    (decode (mkFrame 0x31#8 0x02#8 tag a b) [] = .ok (.reqEvDataSize tag) ∧
      exec (.reqEvDataSize tag) s = .next (s.respond
        { status := .ok, opc := 0x31#8, tag := tag, d0 := s.bank.charLength.setWidth 32 })) ∧
    (decode (mkFrame 0x31#8 0x03#8 tag a b) [] = .ok (.reqEvStopBits tag) ∧
      exec (.reqEvStopBits tag) s = .next (s.respond
        { status := .ok, opc := 0x31#8, tag := tag, d0 := s.bank.stopBits.setWidth 32 })) ∧
    (decode (mkFrame 0x31#8 0x04#8 tag a b) [] = .ok (.reqEvTxParity tag) ∧
      exec (.reqEvTxParity tag) s = .next (s.respond
        { status := .ok, opc := 0x31#8, tag := tag, d0 := s.bank.txParity.setWidth 32 })) ∧
    (decode (mkFrame 0x31#8 0x05#8 tag a b) [] = .ok (.reqEvRxParity tag) ∧
      exec (.reqEvRxParity tag) s = .next (s.respond
        { status := .ok, opc := 0x31#8, tag := tag, d0 := s.bank.rxParity.setWidth 32 })) ∧
    (decode (mkFrame 0x31#8 0x06#8 tag a b) [] = .ok (.reqEvXonByte tag) ∧
      exec (.reqEvXonByte tag) s = .next (s.respond
        { status := .ok, opc := 0x31#8, tag := tag, d0 := s.bank.xonByte.setWidth 32 })) ∧
    (decode (mkFrame 0x31#8 0x07#8 tag a b) [] = .ok (.reqEvXoffByte tag) ∧
      exec (.reqEvXoffByte tag) s = .next (s.respond
        { status := .ok, opc := 0x31#8, tag := tag, d0 := s.bank.xoffByte.setWidth 32 })) ∧
    (decode (mkFrame 0x31#8 0x08#8 tag a b) [] = .ok (.reqEvSpecialByte tag) ∧
      exec (.reqEvSpecialByte tag) s = .next (s.respond
        { status := .badArgument, opc := 0x31#8, tag := tag, d0 := 0#32 })) ∧
    (decode (mkFrame 0x31#8 0x09#8 tag a b) [] = .ok (.reqEvValidDataByte tag) ∧
      exec (.reqEvValidDataByte tag) s = .next (s.respond
        { status := .badArgument, opc := 0x31#8, tag := tag, d0 := 0#32 }))

/-- REQ of latency, flow control, line break and the six queue figures (R241 to R251): the answer alone, in every state
(R230). The queue figures are those the last acquisition recorded. -/
def Obligations.LatencyAndQueueReadBackRules : Prop :=
  ∀ (tag : Tag) (a b : Word) (s : State),
    (decode (mkFrame 0x31#8 0x0A#8 tag a b) [] = .ok (.reqEvMinLatency tag) ∧
      exec (.reqEvMinLatency tag) s = .next (s.respond
        { status := .ok, opc := 0x31#8, tag := tag, d0 := if s.bank.minLatency then 1#32 else 0#32 })) ∧
    (decode (mkFrame 0x31#8 0x0B#8 tag a b) [] = .ok (.reqEvDataLatency tag) ∧
      exec (.reqEvDataLatency tag) s = .next (s.respond
        { status := .ok, opc := 0x31#8, tag := tag, d0 := s.bank.dataLatency })) ∧
    (decode (mkFrame 0x31#8 0x0C#8 tag a b) [] = .ok (.reqEvCharLatency tag) ∧
      exec (.reqEvCharLatency tag) s = .next (s.respond
        { status := .ok, opc := 0x31#8, tag := tag, d0 := s.bank.charLatency })) ∧
    (decode (mkFrame 0x31#8 0x0D#8 tag a b) [] = .ok (.reqEvFlowControl tag) ∧
      exec (.reqEvFlowControl tag) s = .next (s.respond
        { status := .ok, opc := 0x31#8, tag := tag, d0 := s.bank.flowControlMode })) ∧
    (decode (mkFrame 0x31#8 0x0E#8 tag a b) [] = .ok (.reqEvLineBreak tag) ∧
      exec (.reqEvLineBreak tag) s = .next (s.respond
        { status := .ok, opc := 0x31#8, tag := tag, d0 := if hasBit s.line 0x00000002#32 then 1#32 else 0#32 })) ∧
    (decode (mkFrame 0x31#8 0x10#8 tag a b) [] = .ok (.reqEvRxqSize tag) ∧
      exec (.reqEvRxqSize tag) s = .next (s.respond
        { status := .ok, opc := 0x31#8, tag := tag, d0 := BitVec.ofNat 32 s.wmRx.bufferSize })) ∧
    (decode (mkFrame 0x31#8 0x11#8 tag a b) [] = .ok (.reqEvTxqSize tag) ∧
      exec (.reqEvTxqSize tag) s = .next (s.respond
        { status := .ok, opc := 0x31#8, tag := tag, d0 := BitVec.ofNat 32 s.wmTx.bufferSize })) ∧
    (decode (mkFrame 0x31#8 0x12#8 tag a b) [] = .ok (.reqEvRxqHighWater tag) ∧
      exec (.reqEvRxqHighWater tag) s = .next (s.respond
        { status := .ok, opc := 0x31#8, tag := tag, d0 := BitVec.ofNat 32 s.wmRx.highWater })) ∧
    (decode (mkFrame 0x31#8 0x13#8 tag a b) [] = .ok (.reqEvRxqLowWater tag) ∧
      exec (.reqEvRxqLowWater tag) s = .next (s.respond
        { status := .ok, opc := 0x31#8, tag := tag, d0 := BitVec.ofNat 32 s.wmRx.lowWater })) ∧
    (decode (mkFrame 0x31#8 0x14#8 tag a b) [] = .ok (.reqEvTxqHighWater tag) ∧
      exec (.reqEvTxqHighWater tag) s = .next (s.respond
        { status := .ok, opc := 0x31#8, tag := tag, d0 := BitVec.ofNat 32 s.wmTx.highWater })) ∧
    (decode (mkFrame 0x31#8 0x15#8 tag a b) [] = .ok (.reqEvTxqLowWater tag) ∧
      exec (.reqEvTxqLowWater tag) s = .next (s.respond
        { status := .ok, opc := 0x31#8, tag := tag, d0 := BitVec.ofNat 32 s.wmTx.lowWater }))

/-- Read-back (R253): after an EXEC of a storing kind answered OK, REQ of that kind gives what was stored; after one that
failed, every REQ of these kinds gives what it gave before; and no step changes what such a REQ gives but an EXEC of that
kind, the activation of an inactive line, an acquisition and hardware reset. -/
def Obligations.ReadBackReturnsWhatWasStored : Prop :=
  (∀ (i : Instr) (s t : State) (r : Response) (k : Byte) (v : Word),
    storesOf i = some (k, v) → exec i s = .next t → t.lastAnswer = some r →
    (r.status = .ok → t.readBackOf k = some v) ∧
    (r.status ≠ .ok → ∀ j k', readsBackOf j = some k' → t.readBackOf k' = s.readBackOf k')) ∧
  ∀ (turn : Turn) (s t : State) (j : Instr) (k : Byte), readsBackOf j = some k → takeTurn turn s = .next t →
    t.readBackOf k ≠ s.readBackOf k →
    turn = .reset ∨
    (∃ w x, turn = .retest w ∧ s.slot w = some x ∧ x.kind = .acq ∧ ¬ hasBit s.line 0x80000000#32) ∨
    ∃ p c rest i, turn = .accept p ∧ s.pend p = c :: rest ∧ decode c.frame c.payload = .ok i ∧
      ((∃ v, storesOf i = some (k, v)) ∨
        (∃ tag a, i = .execEvActive tag a ∧ a ≠ 0#32 ∧ hasBit s.line 0x80000000#32 ∧ ¬ hasBit s.line 0x40000000#32) ∨
        ∃ blocking tag, i = .acquire blocking tag ∧ ¬ hasBit s.line 0x80000000#32)

/-! ### Rules of the whole machine -/

/-- An error is the response and nothing else (R293): where the command's own new answer is not OK, the state is otherwise
as it was. -/
def Obligations.ErrorsChangeNothing : Prop :=
  ∀ (i : Instr) (s t : State) (r : Response), exec i s = .next t → t.out s.issuer ≠ s.out s.issuer →
    t.lastAnswer = some r → r.status ≠ .ok → t = s.respond r

/-- What each of the eight error statuses says of what produced it (R281 to R288): of the instruction and the state it was
answered in; of a frame that names no instruction; and, where no command was taken, of the re-test. -/
def Obligations.EveryStatusHasItsCause : Prop :=
  (∀ (i : Instr) (s t : State) (p : Port) (new : List Response) (r : Response),
    exec i s = .next t → t.out p = s.out p ++ new → r ∈ new →
    (r.status = .queueFull → ∃ d tag a, i = .rbPush d tag a ∧ (s.rb d).inQueue = (s.rb d).size) ∧
    (r.status = .queueEmpty → ∃ d tag, i = .rbPop d tag ∧ (s.rb d).inQueue = 0) ∧
    (r.status = .badArgument → t = s.respond r ∧ r.d0 = 0#32 ∧ r.d1 = 0#32 ∧
      ((∃ d tag a, i = .rbInit d tag a ∧ (a = 0#32 ∨ s.depth d < a.toNat)) ∨
        (∃ d tag a, i = .rbPush d tag a ∧ 0xFF < a.toNat) ∨
        (∃ d tag a, i = .rbEnddr d tag a ∧ (s.rb d).exposed < a.toNat) ∨
        (∃ tag a b, i = .setstate tag a b ∧ b &&& (0x80000000#32 ||| 0x40000000#32 ||| ~~~0x2020001E#32) ≠ 0#32) ∨
        (∃ tag, hasBit s.line 0x80000000#32 ∧ (i = .acquire true tag ∨
            ∃ a b, i = .watchstate tag a b ∧ watchTest s.line a b (autoOf b) = .unsatisfied) ∧
          (s.params.nwatch ≤ tag.toNat ∨ s.slot tag.toNat ≠ none)) ∨
        (∃ tag, i = .cancelwait tag ∧ (s.params.nwatch ≤ tag.toNat ∨ s.slot tag.toNat = none)) ∨
        (hasBit s.line 0x80000000#32 ∧ dataRefused s.params i) ∨
        (∃ tag, i = .reqEvSpecialByte tag ∨ i = .reqEvValidDataByte tag) ∨
        ∃ tag a b, i = .deqRx tag a b ∧ a < b)) ∧
    (r.status = .notOpen →
      (¬ hasBit s.line 0x80000000#32 ∧ (i.opc = 0x11#8 ∨ i.opc = 0x13#8 ∨ i.opc = 0x15#8 ∨ i.opc = 0x30#8)) ∨
      (¬ hasBit s.line 0x40000000#32 ∧ i.opc = 0x21#8)) ∧
    (r.status = .exclusiveAccess → ∃ tag, i = .acquire false tag ∧ hasBit s.line 0x80000000#32) ∧
    (r.status = .offline →
      (s.terminating = true ∧ (i.opc = 0x10#8 ∨ i.opc = 0x11#8 ∨ i.opc = 0x15#8)) ∨
      ∃ tag w x, i = .terminate tag ∧ s.slot w = some x ∧ x.port = p) ∧
    (r.status = .cancelled → ∃ tag x, i = .cancelwait tag ∧ s.slot tag.toNat = some x ∧ x.port = p ∧ r.d0 = 0#32) ∧
    (r.status = .ioError → ∃ tag a b, i = .watchstate tag a b ∧ b &&& 0x40000000#32 = 0#32 ∧
      ¬ hasBit s.line 0x40000000#32 ∧ r.d0 = s.line &&& 0xE7A7801E#32)) ∧
  (∀ (c : Command) (s t : State) (p : Port) (new : List Response) (r : Response),
    (∀ i, decode c.frame c.payload ≠ .ok i) → runCommand c s = .next t → t.out p = s.out p ++ new → r ∈ new →
    r.status = .badArgument ∧ t = s.respond r ∧ r.d0 = 0#32 ∧ r.d1 = 0#32 ∧
      (malformed c.frame ∨ (opcOf c.frame = 0x30#8 ∨ opcOf c.frame = 0x31#8) ∧ noKind (selOf c.frame))) ∧
  ∀ (turn : Turn) (s t : State) (p : Port) (new : List Response) (r : Response),
    (∀ q, turn ≠ .accept q) → takeTurn turn s = .next t → t.out p = s.out p ++ new → r ∈ new → r.status ≠ .ok →
    r.status = .ioError ∧ r.d0 = s.line &&& 0xE7A7801E#32 ∧
      ∃ w x, turn = .retest w ∧ s.slot w = some x ∧ x.port = p ∧ x.kind = .watch ∧ x.auto = true ∧
        ¬ hasBit s.line 0x40000000#32

/-- Every command either gets its own answer, with its OPC and TAG, last on the port that issued it, or sends nothing and is
parked in the slot of its TAG, or sends nothing and occupies the transfer record of its port (R93, R67, R152, R163). -/
def Obligations.EveryCommandIsAnsweredOrWaits : Prop :=
  ∀ (i : Instr) (s t : State), s.slotsOk → exec i s = .next t →
    t.issuer = s.issuer ∧
    ((∃ others r, t.out s.issuer = s.out s.issuer ++ others ++ [r] ∧ r.opc = i.opc ∧ r.tag = i.tag ∧
        (∀ q ∈ others, q.status = .offline ∨ q.status = .cancelled)) ∨
      (t.outH = s.outH ∧ t.outW = s.outW ∧ s.slot i.tag.toNat = none ∧
        ∃ x, t.slot i.tag.toNat = some x ∧ x.kind.opc = i.opc ∧ x.port = s.issuer ∧ x.awake = false) ∨
      (t.outH = s.outH ∧ t.outW = s.outW ∧
        ∃ job, t.xfer s.issuer = .copy job ∧ job.tag = i.tag ∧ job.op.opc = i.opc))

/-- One StateChanged frame in every step that changes `State`, carrying the whole new word, none in any other step, and a
ConfigSnapshot of that step after it (R290, R291, R292); and the steps that can change `State` (R290). Hardware reset sends
nothing (R320). -/
def Obligations.StateChangedOnEveryDelta : Prop :=
  ∀ (turn : Turn) (s t : State), turn ≠ .reset → takeTurn turn s = .next t →
    (∃ snaps, t.outN = s.outN ++ (if t.line ≠ s.line then [.stateChanged t.line] else []) ++ snaps ∧
      (snaps = [] ∨ snaps = [.configSnapshot t.bank.snapshot] ∧
        ∃ p c rest, turn = .accept p ∧ s.pend p = c :: rest ∧ (opcOf c.frame = 0x30#8 ∨ opcOf c.frame = 0x18#8))) ∧
    (t.line ≠ s.line →
      (∃ w x, turn = .retest w ∧ s.slot w = some x ∧ x.kind = .acq) ∨
      (∃ p job n moved, turn = .transfer p ∧ s.xfer p = .fold job n moved) ∨
      ∃ p c rest, turn = .accept p ∧ s.pend p = c :: rest ∧
        (opcOf c.frame ∈ [0x10#8, 0x11#8, 0x12#8, 0x13#8, 0x14#8] ∨
          opcOf c.frame = 0x30#8 ∧ (selOf c.frame = 0x00#8 ∨ selOf c.frame = 0x0E#8)))

/-- The transitions of the line mode (R297), for every instruction: who sets and clears `ACQUIRED`, `ACTIVE` and
`Terminating`; and a terminating line keeps its mode bit `ACQUIRED`. -/
def Obligations.ModeTransitions : Prop :=
  ∀ (i : Instr) (s t : State), s.lineOk → exec i s = .next t →
    (¬ hasBit s.line 0x80000000#32 → hasBit t.line 0x80000000#32 →
      (∃ blocking tag, i = .acquire blocking tag) ∧ s.terminating = false ∧ ¬ hasBit t.line 0x40000000#32) ∧
    (hasBit s.line 0x80000000#32 → ¬ hasBit t.line 0x80000000#32 →
      (∃ tag, i = .release tag) ∧ s.terminating = false ∧ t.line = 0#32) ∧
    (¬ hasBit s.line 0x40000000#32 → hasBit t.line 0x40000000#32 →
      (∃ tag a, i = .execEvActive tag a ∧ a ≠ 0#32) ∧ hasBit s.line 0x80000000#32) ∧
    (hasBit s.line 0x40000000#32 → ¬ hasBit t.line 0x40000000#32 →
      (∃ tag, i = .release tag) ∨ ∃ tag, i = .execEvActive tag 0#32) ∧
    (t.terminating ≠ s.terminating → t.terminating = true ∧ ∃ tag, i = .terminate tag) ∧
    (s.terminating = true → t.terminating = true ∧
      (hasBit t.line 0x80000000#32 ↔ hasBit s.line 0x80000000#32))

/-- Which instructions write which registers (the "written by" of R23, R28, R35, R36, R41, R44). -/
def Obligations.RegistersHaveTheirWriters : Prop :=
  ∀ (i : Instr) (s t : State), exec i s = .next t →
    (∀ d, ((t.rb d).size ≠ (s.rb d).size ∨ (t.rb d).valid ≠ (s.rb d).valid) →
      i.opc = 0x00#8 ∨ i.opc = 0x0B#8 ∨ i.opc = 0x10#8) ∧
    (∀ d, (t.rb d).lastChar ≠ (s.rb d).lastChar →
      i.opc ∈ [0x00#8, 0x02#8, 0x04#8, 0x0A#8, 0x0B#8, 0x10#8, 0x12#8]) ∧
    (∀ d, (t.rb d).nextChar ≠ (s.rb d).nextChar → i.opc ∈ [0x00#8, 0x01#8, 0x03#8, 0x0B#8, 0x10#8, 0x12#8]) ∧
    (∀ d, (t.rb d).mem ≠ (s.rb d).mem → i.opc = 0x01#8 ∨ i.opc = 0x03#8) ∧
    (t.wmRx ≠ s.wmRx ∨ t.wmTx ≠ s.wmTx → i.opc = 0x10#8) ∧
    (t.terminating ≠ s.terminating → i.opc = 0x17#8) ∧
    (t.bank ≠ s.bank → i.opc = 0x10#8 ∨ i.opc = 0x30#8) ∧
    (t.bank.specialChars ≠ s.bank.specialChars →
      i.opc = 0x10#8 ∨ i.opc = 0x30#8 ∧ (i.sel = 0x00#8 ∨ i.sel = 0x08#8 ∨ i.sel = 0x09#8)) ∧
    (t.bank.flowRuntime ≠ s.bank.flowRuntime ∨ t.bank.rxProto ≠ s.bank.rxProto ∨ t.bank.txProto ≠ s.bank.txProto →
      i.opc = 0x10#8 ∨ i.opc = 0x30#8 ∧ i.sel = 0x00#8) ∧
    t.params = s.params

/-- Quiescent agreement (R271). The turns that R271 speaks of keep it so that, while no transfer is between its copy and its
fold, the queue bits of `State` are those of the counters; GETSTATE, LRESET, a successful ACQUIRE and the fold of a transfer
make them so. RELEASE and hardware reset, which R271 does not name, are excepted: R155 clears the whole word and keeps the
buffers, and R47 has `State = 0` beside closed buffers. What those two leave is stated too (log entry 17). -/
def Obligations.QuiescentAgreement : Prop :=
  (∀ (i : Instr) (s t : State), exec i s = .next t → s.queueBitsAgree → ¬ rawOccupancy i.opc → i.opc ≠ 0x11#8 →
    t.queueBitsAgree) ∧
  (∀ (turn : Turn) (s t : State), takeTurn turn s = .next t → turn ≠ .reset →
    (∀ p c rest i, turn = .accept p → s.pend p = c :: rest → decode c.frame c.payload = .ok i →
      ¬ rawOccupancy i.opc ∧ i.opc ≠ 0x11#8) →
    (s.quiescent → s.queueBitsAgree) → t.quiescent → t.queueBitsAgree) ∧
  (∀ (tag : Tag) (s t : State), exec (.getstate tag) s = .next t ∨ exec (.lreset tag) s = .next t →
    t.queueBitsAgree) ∧
  (∀ (blocking : Bool) (tag : Tag) (s t : State), exec (.acquire blocking tag) s = .next t →
    ¬ hasBit s.line 0x80000000#32 → s.terminating = false → t.queueBitsAgree) ∧
  (∀ (p : Port) (job : XferJob) (n : Nat) (moved : List Byte) (s t : State), s.xfer p = .fold job n moved →
    takeTurn (.transfer p) s = .next t → t.queueBitsAgree) ∧
  (∀ (tag : Tag) (s t : State), exec (.release tag) s = .next t →
    t.queueBits = s.queueBits ∧ (s.terminating = true ∨ ¬ hasBit s.line 0x80000000#32 → t.line = s.line) ∧
    (s.terminating = false → hasBit s.line 0x80000000#32 → (t.queueBitsAgree ↔ s.queueBits = 0#32))) ∧
  ∀ (s t : State), takeTurn .reset s = .next t → t.line = 0#32 ∧ t.queueBits = 0x00808000#32

/-! ### Invariants that every step keeps, and what follows -/

/-- Every step keeps the invariants of both ring buffers and of their storage (R25, R27). -/
def Obligations.StepKeepsRingBuffers : Prop :=
  ∀ s t : State, s.params.legal → s.buffersOk → step s = .next t → t.buffersOk ∧ t.params = s.params

/-- Every step keeps the invariants of `State` (R32). -/
def Obligations.StepKeepsStateWord : Prop :=
  ∀ s t : State, s.lineOk → step s = .next t → t.lineOk

/-- Every step keeps `WatchMask` the OR of the interests of the blocked waits (R34, R174 (b)). -/
def Obligations.StepKeepsWatchMask : Prop :=
  ∀ s t : State, s.slotsOk → s.watchMaskOk → step s = .next t → t.slotsOk ∧ t.watchMaskOk

/-- No wake-up is lost (R174 (a)): every step keeps it so that a wait that is asleep is one whose condition does not
hold. -/
def Obligations.StepKeepsNoLostWakeup : Prop :=
  ∀ s t : State, s.slotsOk → s.waitsOk → s.watchMaskOk → s.noLostWakeup → step s = .next t →
    t.waitsOk ∧ t.noLostWakeup

/-- Every step keeps a good state good: the ring buffers, the state word, the watch mask, the parked waits, the bank within
its legal values (R37, R43, R44), the watermark registers (R28), no wait parked on a terminating line (R170). -/
def Obligations.StepKeepsGoodState : Prop :=
  ∀ s t : State, s.Inv → step s = .next t → t.Inv

/-- A good state never stops: "every frame has a defined response" (R343), and no access is ever out of range (R61). -/
def Obligations.GoodStateNeverStops : Prop :=
  ∀ s : State, s.Inv → ∃ t, step s = .next t

/-- Storage bytes outside the buffered windows are unreadable (R22, R27 (e), R322): from two states that differ in nothing
else, a step gives two states that differ in nothing else, and so sends the same frames. -/
def Obligations.StaleBytesAreInvisible : Prop :=
  ∀ s t s' : State, s.params.legal → s.buffersOk → t.buffersOk → s.sameButStale t → step s = .next s' →
    ∃ t', step t = .next t' ∧ s'.sameButStale t'

/-- Left alone, the engine comes to rest: from a good state with nothing scheduled and no command waiting, every transfer in
flight responds and every woken wait re-tests, in at most four steps for the transfers and two for each watcher slot
(R76; the fixed order of the agents is log entry 5). -/
def Obligations.EverythingSettles : Prop :=
  ∀ s : State, s.Inv → s.schedule = [] → s.pendH = [] → s.pendW = [] →
    ∃ k t, k ≤ 4 + 2 * s.params.nwatch ∧ Host.Core.run core k s = .next t ∧ t.settled ∧
      t.schedule = [] ∧ t.pendH = [] ∧ t.pendW = []
end

