-- ==== Sys2Proof/Laws/Decode.lean ====
section
/-! SUPPORT. The fields of a command frame: what the encoder's frames carry, and that a frame with a zero reserved field is
made of its fields (30_encoding.md R90). -/

namespace Sys2Proof

@[simp] theorem opcOf_mkFrame (o l : Byte) (t : Tag) (a b : Word) : opcOf (mkFrame o l t a b) = o := by
  apply BitVec.eq_of_getLsbD_eq
  intro i hi
  simp only [opcOf, mkFrame, BitVec.getLsbD_extractLsb', BitVec.getLsbD_append]
  grind

@[simp] theorem selOf_mkFrame (o l : Byte) (t : Tag) (a b : Word) : selOf (mkFrame o l t a b) = l := by
  apply BitVec.eq_of_getLsbD_eq
  intro i hi
  simp only [selOf, mkFrame, BitVec.getLsbD_extractLsb', BitVec.getLsbD_append]
  grind

@[simp] theorem tagOf_mkFrame (o l : Byte) (t : Tag) (a b : Word) : tagOf (mkFrame o l t a b) = t := by
  apply BitVec.eq_of_getLsbD_eq
  intro i hi
  simp only [tagOf, mkFrame, BitVec.getLsbD_extractLsb', BitVec.getLsbD_append]
  grind

@[simp] theorem rsvOf_mkFrame (o l : Byte) (t : Tag) (a b : Word) : rsvOf (mkFrame o l t a b) = 0#8 := by
  apply BitVec.eq_of_getLsbD_eq
  intro i hi
  simp only [rsvOf, mkFrame, BitVec.getLsbD_extractLsb', BitVec.getLsbD_append]
  grind

@[simp] theorem operandA_mkFrame (o l : Byte) (t : Tag) (a b : Word) : operandA (mkFrame o l t a b) = a := by
  apply BitVec.eq_of_getLsbD_eq
  intro i hi
  simp only [operandA, mkFrame, BitVec.getLsbD_extractLsb', BitVec.getLsbD_append]
  grind

@[simp] theorem operandB_mkFrame (o l : Byte) (t : Tag) (a b : Word) : operandB (mkFrame o l t a b) = b := by
  apply BitVec.eq_of_getLsbD_eq
  intro i hi
  simp only [operandB, mkFrame, BitVec.getLsbD_extractLsb', BitVec.getLsbD_append]
  grind

/-- A frame whose reserved field is zero is made of its other five fields. -/
theorem mkFrame_fields {f : Frame} (h : rsvOf f = 0#8) :
    mkFrame (opcOf f) (selOf f) (tagOf f) (operandA f) (operandB f) = f := by
  have hz : ∀ i, i < 8 → f.getLsbD (24 + i) = false := by
    intro i hi
    have := congrArg (fun v => BitVec.getLsbD v i) h
    simpa [rsvOf, hi] using this
  apply BitVec.eq_of_getLsbD_eq
  intro i hi
  simp only [opcOf, selOf, tagOf, operandA, operandB, mkFrame, BitVec.getLsbD_extractLsb', BitVec.getLsbD_append]
  have := hz (i - 24)
  grind

/-- The frame an instruction is encoded in carries the instruction's fields. -/
theorem encode_fields (i : Instr) :
    opcOf (encode i).frame = i.opc ∧ selOf (encode i).frame = i.sel ∧ tagOf (encode i).frame = i.tag ∧
      rsvOf (encode i).frame = 0#8 ∧ operandA (encode i).frame = i.a ∧ operandB (encode i).frame = i.b := by
  simp [encode]

end Sys2Proof
end

