-- ==== Sys2Proof/Laws/Memory.lean ====
section
/-! SUPPORT. Ring storage: a read after a write, and the canonical form, which every operation keeps. -/

namespace Sys2Proof.Machine

@[simp] theorem Memory.read_nil (i : Nat) : Memory.read [] i = Memory.blank := rfl

theorem Memory.read_cons (k : Nat) (v : Byte) (m : Memory) (i : Nat) :
    Memory.read ((k, v) :: m) i = if k = i then v else Memory.read m i := rfl

/-- In canonical form from `lo`, an index below `lo` is not listed. -/
theorem Memory.read_below {lo : Nat} {m : Memory} (h : Memory.wfFrom lo m = true) {i : Nat} (hi : i < lo) :
    Memory.read m i = Memory.blank := by
  induction m generalizing lo with
  | nil => rfl
  | cons c m ih =>
    obtain ⟨k, v⟩ := c
    simp only [Memory.wfFrom, Bool.and_eq_true, decide_eq_true_eq] at h
    obtain ⟨⟨hk, _⟩, hm⟩ := h
    rw [Memory.read_cons, if_neg (by omega)]
    exact ih hm (by omega)

/-- A canonical form from `lo` is one from anything lower. -/
theorem Memory.wfFrom_mono {lo lo' : Nat} {m : Memory} (h : Memory.wfFrom lo m = true) (hl : lo' ≤ lo) :
    Memory.wfFrom lo' m = true := by
  cases m with
  | nil => rfl
  | cons c m =>
    obtain ⟨k, v⟩ := c
    simp only [Memory.wfFrom, Bool.and_eq_true, decide_eq_true_eq] at h ⊢
    exact ⟨⟨by omega, h.1.2⟩, h.2⟩

/-- A read after a write: the byte written at its index, what was there everywhere else. -/
theorem Memory.read_write {lo : Nat} {m : Memory} (h : Memory.wfFrom lo m = true) (i j : Nat) (x : Byte) :
    Memory.read (Memory.write m i x) j = if i = j then x else Memory.read m j := by
  induction m generalizing lo with
  | nil =>
    simp only [Memory.write]
    split
    · next hx => subst hx; simp
    · simp [Memory.read_cons]
  | cons c m ih =>
    obtain ⟨k, v⟩ := c
    have h0 := h
    simp only [Memory.wfFrom, Bool.and_eq_true, decide_eq_true_eq] at h
    obtain ⟨⟨hk, hv⟩, hm⟩ := h
    simp only [Memory.write]
    split
    · next hik =>
      split
      · next hx =>
        split
        · next hij =>
          subst hij; subst hx
          rw [Memory.read_cons, if_neg (by omega)]
          exact Memory.read_below hm (by omega)
        · rfl
      · rw [Memory.read_cons]
    · next hik =>
      split
      · next hik2 =>
        subst hik2
        split
        · next hx =>
          subst hx
          split
          · next hij => subst hij; exact Memory.read_below hm (by omega)
          · next hij => rw [Memory.read_cons, if_neg hij]
        · rw [Memory.read_cons, Memory.read_cons]
          split <;> rfl
      · next hik2 =>
        rw [Memory.read_cons, Memory.read_cons, ih hm]
        split <;> split <;> first | rfl | omega

/-- A write keeps the canonical form. -/
theorem Memory.wfFrom_write {lo : Nat} {m : Memory} (h : Memory.wfFrom lo m = true) {i : Nat} (hi : lo ≤ i) (x : Byte) :
    Memory.wfFrom lo (Memory.write m i x) = true := by
  induction m generalizing lo with
  | nil =>
    simp only [Memory.write]
    split <;> simp_all [Memory.wfFrom]
  | cons c m ih =>
    obtain ⟨k, v⟩ := c
    have h0 := h
    simp only [Memory.wfFrom, Bool.and_eq_true, decide_eq_true_eq] at h
    obtain ⟨⟨hk, hv⟩, hm⟩ := h
    simp only [Memory.write]
    split
    · next hik =>
      split
      · exact h0
      · next hx =>
        simp only [Memory.wfFrom, Bool.and_eq_true, decide_eq_true_eq]
        exact ⟨⟨hi, hx⟩, ⟨by omega, hv⟩, hm⟩
    · split
      · next hik2 =>
        subst hik2
        split
        · exact Memory.wfFrom_mono hm (by omega)
        · next hx =>
          simp only [Memory.wfFrom, Bool.and_eq_true, decide_eq_true_eq]
          exact ⟨⟨hi, hx⟩, hm⟩
      · simp only [Memory.wfFrom, Bool.and_eq_true, decide_eq_true_eq]
        exact ⟨⟨hk, hv⟩, ih hm (by omega)⟩

theorem Memory.wf_write {m : Memory} (h : m.wf = true) (i : Nat) (x : Byte) : (m.write i x).wf = true :=
  Memory.wfFrom_write h (Nat.zero_le i) x

theorem Memory.read_write_wf {m : Memory} (h : m.wf = true) (i j : Nat) (x : Byte) :
    (m.write i x).read j = if i = j then x else m.read j := Memory.read_write h i j x

/-- A write lists no index but its own. -/
theorem Memory.mem_write {m : Memory} {i : Nat} {x : Byte} {c : Host.Cell} (h : c ∈ m.write i x) :
    c ∈ m ∨ c = (i, x) := by
  induction m with
  | nil =>
    simp only [Memory.write] at h
    split at h <;> simp_all
  | cons e m ih =>
    obtain ⟨k, v⟩ := e
    simp only [Memory.write] at h
    split at h
    · split at h <;> simp_all
      tauto
    · split at h
      · split at h <;> simp_all
        tauto
      · simp only [List.mem_cons] at h ⊢
        rcases h with h | h
        · exact .inl (.inl h)
        · exact (ih h).elim (fun g => .inl (.inr g)) .inr

/-- A write inside the physical storage keeps the storage's invariant. -/
theorem Memory.ok_write {depth : Nat} {m : Memory} (h : m.ok depth) {i : Nat} (hi : i < depth) (x : Byte) :
    (m.write i x).ok depth := by
  refine ⟨Memory.wf_write h.1 i x, fun c hc => ?_⟩
  rcases Memory.mem_write hc with hc | hc
  · exact h.2 c hc
  · subst hc; exact hi

theorem Memory.ok_nil (depth : Nat) : Memory.ok depth [] := ⟨rfl, by simp⟩

end Sys2Proof.Machine
end

