-- ==== Sys2Proof/Laws/Ring.lean ====
section
/-! SUPPORT. What each ring-buffer operation does to a buffer that meets its invariants: it succeeds, keeps the
invariants, and acts on the buffered bytes as a bounded first-in first-out queue (10_state.md R24, R25; 40_ringbuffer.md
R133). -/

namespace Sys2Proof.Machine

/-! ### Cursors -/

theorem RingBuffer.advance_eq_mod {b : RingBuffer} {c : Nat} (h : c < b.size) : b.advance c = (c + 1) % b.size := by
  unfold RingBuffer.advance
  split
  · next e => rw [e, Nat.mod_self]
  · rw [Nat.mod_eq_of_lt (by omega)]

theorem RingBuffer.advanceBy_eq_mod {b : RingBuffer} {c k : Nat} (h : c + k ≤ b.size) :
    b.advanceBy c k = (c + k) % b.size := by
  unfold RingBuffer.advanceBy
  split
  · next e => rw [e, Nat.mod_self]
  · rw [Nat.mod_eq_of_lt (by omega)]

/-- Two offsets below the size that reach the same index are equal. -/
theorem offset_unique {n l i j : Nat} (hi : i < n) (hj : j < n) (h : (l + i) % n = (l + j) % n) : i = j := by
  have e : i ≡ j [MOD n] := Nat.ModEq.add_left_cancel' l h
  unfold Nat.ModEq at e
  rwa [Nat.mod_eq_of_lt hi, Nat.mod_eq_of_lt hj] at e

/-! ### Buffered bytes -/

@[simp] theorem RingBuffer.contents_length (b : RingBuffer) : b.contents.length = b.inQueue := by
  simp [RingBuffer.contents]

theorem RingBuffer.contents_of_empty {b : RingBuffer} (h : b.inQueue = 0) : b.contents = [] := by
  simp [RingBuffer.contents, h]

theorem RingBuffer.contents_getElem? (b : RingBuffer) (k : Nat) (h : k < b.inQueue) :
    b.contents[k]? = some (b.mem.read ((b.lastChar + k) % b.size)) := by
  simp [RingBuffer.contents, h]

/-- The buffered bytes depend on the storage, the size, the read cursor and the count. -/
theorem RingBuffer.contents_congr {b c : RingBuffer} (hm : c.mem = b.mem) (hs : c.size = b.size)
    (hl : c.lastChar = b.lastChar) (hq : c.inQueue = b.inQueue) : c.contents = b.contents := by
  simp [RingBuffer.contents, hm, hs, hl, hq]

/-! ### One byte in -/

theorem RingBuffer.pushByte_eq {b : RingBuffer} (h : b.nextChar < b.size) (x : Byte) :
    b.pushByte x = some { b with
      mem := b.mem.write b.nextChar x, nextChar := b.advance b.nextChar, inQueue := b.inQueue + 1 } := by
  simp [RingBuffer.pushByte, RingBuffer.memWrite, h]

/-- A byte pushed into a buffer with room: the buffer keeps its invariants and the byte comes last. -/
theorem RingBuffer.pushByte_spec {b : RingBuffer} {depth : Nat} (h : b.openOk depth) (hm : b.mem.ok depth)
    (hq : b.inQueue < b.size) (x : Byte) :
    ∃ c, b.pushByte x = some c ∧ c.openOk depth ∧ c.mem.ok depth ∧
      c = { b with mem := c.mem, nextChar := b.advance b.nextChar, inQueue := b.inQueue + 1 } ∧
      c.contents = b.contents ++ [x] ∧
      ∀ i, c.mem.read i = if b.nextChar = i then x else b.mem.read i := by
  obtain ⟨hv, ⟨h1, hd⟩, hqs, ⟨hl, hn⟩, hnx, he, hle⟩ := h
  have hr : ∀ i, (b.mem.write b.nextChar x).read i = if b.nextChar = i then x else b.mem.read i :=
    fun i => Memory.read_write_wf hm.1 _ i x
  refine ⟨_, RingBuffer.pushByte_eq hn x, ⟨hv, ⟨h1, hd⟩, ?_, ⟨hl, ?_⟩, ?_, ?_, hle⟩,
    Memory.ok_write hm (lt_of_lt_of_le hn hd) x, rfl, ?_, hr⟩
  · show b.inQueue + 1 ≤ b.size
    omega
  · show b.advance b.nextChar < b.size
    rw [RingBuffer.advance_eq_mod hn]
    exact Nat.mod_lt _ h1
  · show b.advance b.nextChar = (b.lastChar + (b.inQueue + 1)) % b.size
    rw [RingBuffer.advance_eq_mod hn, hnx, Nat.mod_add_mod, Nat.add_assoc]
  · show b.exposed ≤ b.inQueue + 1
    omega
  · simp only [RingBuffer.contents, List.range_succ, List.map_append, List.map_cons, List.map_nil]
    rw [hr, if_pos hnx]
    congr 1
    apply List.map_congr_left
    intro k hk
    rw [hr, if_neg]
    intro e
    have := offset_unique (n := b.size) (l := b.lastChar) (i := b.inQueue) (j := k) hq
      (lt_trans (List.mem_range.mp hk) hq) (by rw [← hnx]; exact e)
    exact absurd (List.mem_range.mp hk) (by omega)

/-- Bytes that fit pushed one after the other: the buffer keeps its invariants and the bytes come last, in order. -/
theorem RingBuffer.pushBytes_spec {depth : Nat} (xs : List Byte) {b : RingBuffer} (h : b.openOk depth)
    (hm : b.mem.ok depth) (hq : b.inQueue + xs.length ≤ b.size) :
    ∃ c, b.pushBytes xs = some c ∧ c.openOk depth ∧ c.mem.ok depth ∧
      c = { b with mem := c.mem, nextChar := (b.nextChar + xs.length) % b.size, inQueue := b.inQueue + xs.length } ∧
      c.contents = b.contents ++ xs ∧
      ∀ i, (∀ k, k < xs.length → i ≠ (b.nextChar + k) % b.size) → c.mem.read i = b.mem.read i := by
  induction xs generalizing b with
  | nil =>
    refine ⟨b, rfl, h, hm, ?_, by simp, fun _ _ => rfl⟩
    obtain ⟨_, _, _, ⟨_, hn⟩, _⟩ := h
    simp [Nat.mod_eq_of_lt hn]
  | cons x xs ih =>
    have hq' : b.inQueue + (xs.length + 1) ≤ b.size := hq
    have hn : b.nextChar < b.size := h.2.2.2.1.2
    obtain ⟨c, hc, hok, hmc, heq, hcont, hread⟩ := RingBuffer.pushByte_spec h hm (by omega) x
    have hsz : c.size = b.size := by rw [heq]
    have hcq : c.inQueue = b.inQueue + 1 := by rw [heq]
    have hcn : c.nextChar = (b.nextChar + 1) % b.size := by
      rw [heq]
      exact RingBuffer.advance_eq_mod hn
    obtain ⟨e, hep, heok, hem, hee, hec, her⟩ := ih hok hmc (by omega)
    refine ⟨e, ?_, heok, hem, ?_, ?_, ?_⟩
    · simp [RingBuffer.pushBytes, hc, hep]
    · rw [hee, hsz, hcn, hcq, Nat.mod_add_mod, heq]
      simp only [List.length_cons]
      congr 1
      · congr 1; omega
      · omega
    · rw [hec, hcont]
      simp
    · intro i hi
      rw [her i, hread i, if_neg]
      · intro e0
        exact hi 0 (by simp) (by rw [Nat.add_zero, Nat.mod_eq_of_lt hn]; exact e0.symm)
      · intro k hk e1
        refine hi (k + 1) (by simpa using hk) ?_
        rw [e1, hsz, hcn, Nat.mod_add_mod]
        congr 1; omega

/-! ### One byte out -/

theorem RingBuffer.popByte_eq {b : RingBuffer} (h : b.lastChar < b.size) :
    b.popByte = some (b.mem.read b.lastChar,
      { b with lastChar := b.advance b.lastChar, inQueue := b.inQueue - 1 }) := by
  simp [RingBuffer.popByte, RingBuffer.memRead, h]

/-- The buffered bytes of a buffer that is not empty: the oldest, and those after the read cursor has moved on. -/
theorem RingBuffer.contents_pop {b : RingBuffer} (hl : b.lastChar < b.size) (hq : 0 < b.inQueue) :
    b.contents = b.mem.read b.lastChar ::
      ({ b with lastChar := b.advance b.lastChar, inQueue := b.inQueue - 1 } : RingBuffer).contents := by
  obtain ⟨n, hn⟩ : ∃ n, b.inQueue = n + 1 := ⟨b.inQueue - 1, by omega⟩
  simp only [RingBuffer.contents, hn, Nat.add_sub_cancel, List.range_succ_eq_map, List.map_cons, List.map_map,
    Nat.add_zero]
  rw [Nat.mod_eq_of_lt hl]
  congr 1
  apply List.map_congr_left
  intro k _
  simp only [Function.comp]
  rw [RingBuffer.advance_eq_mod hl, Nat.mod_add_mod]
  congr 2
  omega

/-- `n` buffered bytes popped: they are the oldest ones, in order, and the rest stay. Moving bytes leaves `Exposed` as it
is; the invariant holds once the caller has put it within bounds. -/
theorem RingBuffer.popBytes_spec {depth : Nat} (n : Nat) {b : RingBuffer} (h : b.openOk depth) (hq : n ≤ b.inQueue) :
    ∃ c, b.popBytes n = some (b.contents.take n, c) ∧
      c = { b with lastChar := (b.lastChar + n) % b.size, inQueue := b.inQueue - n } ∧
      c.contents = b.contents.drop n ∧ ({ c with exposed := 0 } : RingBuffer).openOk depth := by
  induction n generalizing b with
  | zero =>
    obtain ⟨hv, ⟨h1, hd⟩, hqs, ⟨hl, hn⟩, hnx, he, hle⟩ := h
    refine ⟨b, by simp [RingBuffer.popBytes], ?_, by simp, hv, ⟨h1, hd⟩, hqs, ⟨hl, hn⟩, hnx, ?_, ?_⟩
    · simp [Nat.mod_eq_of_lt hl]
    · exact Nat.zero_le _
    · show b.lastChar + 0 ≤ b.size
      omega
  | succ n ih =>
    obtain ⟨hv, ⟨h1, hd⟩, hqs, ⟨hl, hn⟩, hnx, he, hle⟩ := h
    have hpos : 0 < b.inQueue := by omega
    have hcl : (b.lastChar + 1) % b.size < b.size := Nat.mod_lt _ h1
    let c : RingBuffer := { b with lastChar := b.advance b.lastChar, inQueue := b.inQueue - 1 }
    have hcok : ({ c with exposed := 0 } : RingBuffer).openOk depth := by
      refine ⟨hv, ⟨h1, hd⟩, ?_, ⟨?_, hn⟩, ?_, Nat.zero_le _, ?_⟩
      · show b.inQueue - 1 ≤ b.size
        omega
      · show b.advance b.lastChar < b.size
        rw [RingBuffer.advance_eq_mod hl]; exact hcl
      · show b.nextChar = (b.advance b.lastChar + (b.inQueue - 1)) % b.size
        rw [RingBuffer.advance_eq_mod hl, Nat.mod_add_mod, hnx]
        congr 1; omega
      · show b.advance b.lastChar + 0 ≤ b.size
        rw [RingBuffer.advance_eq_mod hl]; omega
    obtain ⟨e, hep, hee, hec, heok⟩ := ih hcok (show n ≤ b.inQueue - 1 by omega)
    have hcont : b.contents = b.mem.read b.lastChar :: c.contents := RingBuffer.contents_pop hl hpos
    have hc0 : ({ c with exposed := 0 } : RingBuffer).contents = c.contents := rfl
    -- the same pops from `c`, whose `Exposed` is untouched
    have hgen : ∀ (m : Nat) (r : RingBuffer) (xs : List Byte) (r' : RingBuffer) (v : Nat),
        r.popBytes m = some (xs, r') →
        ({ r with exposed := v } : RingBuffer).popBytes m = some (xs, { r' with exposed := v }) := by
      intro m
      induction m with
      | zero =>
        intro r xs r' v hr
        simp only [RingBuffer.popBytes, Option.some.injEq, Prod.mk.injEq] at hr
        obtain ⟨rfl, rfl⟩ := hr
        rfl
      | succ m ihm =>
        intro r xs r' v hr
        by_cases hlt : r.lastChar < r.size
        · have e1 := RingBuffer.popByte_eq hlt
          have e2 := RingBuffer.popByte_eq (b := { r with exposed := v }) hlt
          simp only [RingBuffer.popBytes, e1] at hr
          split at hr
          · next ys r2 hy =>
            simp only [Option.some.injEq, Prod.mk.injEq] at hr
            obtain ⟨rfl, rfl⟩ := hr
            simp only [RingBuffer.popBytes, e2]
            have := ihm _ _ _ v hy
            simp only at this
            rw [show RingBuffer.advance { r with exposed := v } r.lastChar = r.advance r.lastChar from rfl, this]
          · exact absurd hr (by simp)
        · simp [RingBuffer.popBytes, RingBuffer.popByte, RingBuffer.memRead, hlt] at hr
    have hback := hgen n { c with exposed := 0 } _ e b.exposed hep
    have hcc : ({ ({ c with exposed := 0 } : RingBuffer) with exposed := b.exposed } : RingBuffer) = c := rfl
    rw [hcc] at hback
    refine ⟨{ e with exposed := b.exposed }, ?_, ?_, ?_, heok⟩
    · have hb : b.popByte = some (b.mem.read b.lastChar, c) := RingBuffer.popByte_eq hl
      simp only [RingBuffer.popBytes, hb]
      rw [hback, hcont]
      simp [hc0]
    · rw [hee]
      show ({ b with lastChar := (b.advance b.lastChar + n) % b.size, inQueue := b.inQueue - 1 - n } : RingBuffer) = _
      rw [RingBuffer.advance_eq_mod hl, Nat.mod_add_mod]
      congr 1
      · congr 1; omega
      · omega
    · show e.contents = _
      rw [hec, hc0, hcont]
      simp

/-! ### Direct reads -/

/-- Reading `n` indices up from `i` inside the storage gives the bytes there. -/
theorem RingBuffer.readRun_spec (b : RingBuffer) (n i : Nat) (h : i + n ≤ b.size) :
    b.readRun i n = some ((List.range n).map fun k => b.mem.read (i + k)) := by
  induction n generalizing i with
  | zero => simp [RingBuffer.readRun]
  | succ n ih =>
    have hi : i < b.size := by omega
    simp only [RingBuffer.readRun, RingBuffer.memRead, if_pos hi, ih (i + 1) (by omega), List.range_succ_eq_map,
      List.map_cons, List.map_map, Nat.add_zero, Option.some.injEq, List.cons.injEq, true_and]
    apply List.map_congr_left
    intro k _
    simp only [Function.comp]
    congr 1; omega

theorem RingBuffer.windowLength_le (b : RingBuffer) (n : Nat) :
    b.windowLength n ≤ n ∧ b.windowLength n ≤ b.inQueue ∧ b.windowLength n ≤ b.toEnd := by
  unfold RingBuffer.windowLength RingBuffer.want
  split <;> omega

/-- RB_BEGINDR shows the oldest buffered bytes, as many as the window holds, and only `Exposed` changes. -/
theorem RingBuffer.expose_spec {b : RingBuffer} {depth : Nat} (h : b.ok depth) (n : Nat) :
    b.expose n = some (b.contents.take (b.windowLength n), { b with exposed := b.windowLength n }) ∧
      ({ b with exposed := b.windowLength n } : RingBuffer).ok depth := by
  obtain ⟨hw1, hw2, hw3⟩ := RingBuffer.windowLength_le b n
  unfold RingBuffer.toEnd at hw3
  rcases h with ⟨hv, ⟨h1, hd⟩, hqs, ⟨hl, hn⟩, hnx, he, hle⟩ | ⟨hv, hs, hl, hn, hq, he⟩
  · refine ⟨?_, .inl ⟨hv, ⟨h1, hd⟩, hqs, ⟨hl, hn⟩, hnx, hw2, ?_⟩⟩
    · unfold RingBuffer.expose
      rw [RingBuffer.readRun_spec b _ _ (by omega)]
      simp only [Option.some.injEq, Prod.mk.injEq, and_true]
      simp only [RingBuffer.contents, ← List.map_take, List.take_range]
      rw [Nat.min_eq_left hw2]
      apply List.map_congr_left
      intro k hk
      have := List.mem_range.mp hk
      rw [Nat.mod_eq_of_lt (by omega)]
    · show b.lastChar + b.windowLength n ≤ b.size
      omega
  · have hz : b.windowLength n = 0 := by omega
    refine ⟨?_, .inr ⟨hv, hs, hl, hn, hq, hz⟩⟩
    unfold RingBuffer.expose
    rw [hz]
    simp [RingBuffer.readRun]

/-- RB_ENDDR within the exposure drops the oldest buffered bytes. -/
theorem RingBuffer.consume_spec {b : RingBuffer} {depth : Nat} (h : b.ok depth) {n : Nat} (hn : n ≤ b.exposed) :
    (b.consume n).ok depth ∧ (b.consume n).contents = b.contents.drop n ∧
      (0 < n → b.consume n = { b with
        lastChar := (b.lastChar + n) % b.size, inQueue := b.inQueue - n, exposed := 0 }) ∧
      (n = 0 → b.consume n = { b with exposed := 0 }) := by
  rcases h with ⟨hv, ⟨h1, hd⟩, hqs, ⟨hl, hnl⟩, hnx, he, hle⟩ | ⟨hv, hs, hl, hnl, hq, he⟩
  · by_cases h0 : 0 < n
    · have hmod : b.advanceBy b.lastChar n = (b.lastChar + n) % b.size :=
        RingBuffer.advanceBy_eq_mod (by omega)
      have hlt : (b.lastChar + n) % b.size < b.size := Nat.mod_lt _ h1
      have heq : b.consume n = { b with
          lastChar := (b.lastChar + n) % b.size, inQueue := b.inQueue - n, exposed := 0 } := by
        unfold RingBuffer.consume
        rw [if_pos h0, hmod]
      refine ⟨?_, ?_, fun _ => heq, fun e => absurd e (by omega)⟩
      · rw [heq]
        refine .inl ⟨hv, ⟨h1, hd⟩, ?_, ⟨hlt, hnl⟩, ?_, Nat.zero_le _, ?_⟩
        · show b.inQueue - n ≤ b.size
          omega
        · show b.nextChar = ((b.lastChar + n) % b.size + (b.inQueue - n)) % b.size
          rw [Nat.mod_add_mod, hnx]; congr 1; omega
        · show (b.lastChar + n) % b.size + 0 ≤ b.size
          omega
      · obtain ⟨c, -, hce, hcc, -⟩ := RingBuffer.popBytes_spec (b := b) (depth := depth) n
          ⟨hv, ⟨h1, hd⟩, hqs, ⟨hl, hnl⟩, hnx, he, hle⟩ (by omega)
        rw [← hcc, heq, hce]
        rfl
    · have : n = 0 := by omega
      subst this
      have heq : b.consume 0 = { b with exposed := 0 } := rfl
      refine ⟨?_, by rw [heq]; rfl, fun e => absurd e h0, fun _ => heq⟩
      rw [heq]
      exact .inl ⟨hv, ⟨h1, hd⟩, hqs, ⟨hl, hnl⟩, hnx, Nat.zero_le _, by show b.lastChar + 0 ≤ b.size; omega⟩
  · have : n = 0 := by omega
    subst this
    have heq : b.consume 0 = { b with exposed := 0 } := rfl
    refine ⟨?_, by rw [heq]; rfl, fun e => absurd e (by omega), fun _ => heq⟩
    rw [heq]
    exact .inr ⟨hv, hs, hl, hnl, hq, rfl⟩

/-! ### The operations of the commands -/

/-- RB_PUSH on a buffer that is not full. -/
theorem RingBuffer.push_spec {b : RingBuffer} {depth : Nat} (h : b.ok depth) (hm : b.mem.ok depth)
    (hq : b.inQueue ≠ b.size) (x : Byte) :
    ∃ c, b.push x = some c ∧ c.ok depth ∧ c.mem.ok depth ∧
      c = { b with mem := c.mem, nextChar := b.advance b.nextChar, inQueue := b.inQueue + 1 } ∧
      c.contents = b.contents ++ [x] ∧
      ∀ i, c.mem.read i = if b.nextChar = i then x else b.mem.read i := by
  rcases h with h | h
  · obtain ⟨c, h1, h2, h3⟩ := RingBuffer.pushByte_spec h hm (lt_of_le_of_ne h.2.2.1 hq) x
    exact ⟨c, h1, .inl h2, h3⟩
  · exact absurd (h.2.2.2.2.1.trans h.2.1.symm) hq

/-- RB_POP on a buffer that is not empty. -/
theorem RingBuffer.pop_spec {b : RingBuffer} {depth : Nat} (h : b.ok depth) (hq : b.inQueue ≠ 0) :
    ∃ x c, b.pop = some (x, c) ∧ c.ok depth ∧ x = b.mem.read b.lastChar ∧
      c = { b with lastChar := b.advance b.lastChar, inQueue := b.inQueue - 1, exposed := 0 } ∧
      b.contents = x :: c.contents := by
  rcases h with h | h
  · have hl := h.2.2.2.1.1
    obtain ⟨c, hc, hce, hcc, hok⟩ := RingBuffer.popBytes_spec (b := b) (depth := depth) 1 h (by omega)
    refine ⟨_, { b with lastChar := b.advance b.lastChar, inQueue := b.inQueue - 1, exposed := 0 }, ?_, ?_, rfl, rfl, ?_⟩
    · simp [RingBuffer.pop, RingBuffer.popByte_eq hl]
    · left
      rw [hce] at hok
      rw [RingBuffer.advance_eq_mod hl]
      exact hok
    · exact RingBuffer.contents_pop hl (by omega)
  · exact absurd h.2.2.2.2.1 hq

/-- RB_PUSHBULK and ENQ_RX's copy: the bytes that fit come last, in order. -/
theorem RingBuffer.pushBulk_spec {b : RingBuffer} {depth : Nat} (h : b.ok depth) (hm : b.mem.ok depth)
    (bytes : List Byte) :
    ∃ c, b.pushBulk bytes = some (min bytes.length b.free, c) ∧ c.ok depth ∧ c.mem.ok depth ∧
      c = { b with mem := c.mem, nextChar := (b.nextChar + min bytes.length b.free) % b.size,
                   inQueue := b.inQueue + min bytes.length b.free } ∧
      c.contents = b.contents ++ bytes.take b.free ∧
      ∀ i, (∀ k, k < min bytes.length b.free → i ≠ (b.nextChar + k) % b.size) → c.mem.read i = b.mem.read i := by
  have hlen : (bytes.take b.free).length = min bytes.length b.free := by
    rw [List.length_take]; exact Nat.min_comm _ _
  rcases h with h | h
  · have hqs := h.2.2.1
    have hfit : b.inQueue + (bytes.take b.free).length ≤ b.size := by
      rw [hlen]; unfold RingBuffer.free; omega
    obtain ⟨c, hc, h1, h2, h3, h4, h5⟩ := RingBuffer.pushBytes_spec (bytes.take b.free) h hm hfit
    rw [hlen] at h3 h5
    exact ⟨c, by simp [RingBuffer.pushBulk, hc], .inl h1, h2, h3, h4, h5⟩
  · obtain ⟨hv, hs, hl, hn, hq, he⟩ := h
    have hf : b.free = 0 := by unfold RingBuffer.free; omega
    refine ⟨b, by simp [RingBuffer.pushBulk, hf, RingBuffer.pushBytes], .inr ⟨hv, hs, hl, hn, hq, he⟩, hm, ?_, by simp [hf], fun _ _ => rfl⟩
    have : b.nextChar % b.size = b.nextChar := by rw [hs, Nat.mod_zero]
    simp [hf, this]

/-- RB_POPBULK and DEQ_RX's copy: the oldest bytes, in order, leave. -/
theorem RingBuffer.popBulk_spec {b : RingBuffer} {depth : Nat} (h : b.ok depth) (n : Nat) :
    ∃ c, b.popBulk n = some (b.contents.take n, c) ∧ c.ok depth ∧
      c = { b with lastChar := (b.lastChar + min n b.inQueue) % b.size, inQueue := b.inQueue - min n b.inQueue,
                   exposed := if 0 < min n b.inQueue then 0 else b.exposed } ∧
      c.contents = b.contents.drop n := by
  have htake : b.contents.take (min n b.inQueue) = b.contents.take n := by
    conv_rhs => rw [← List.take_length (l := b.contents), List.take_take, RingBuffer.contents_length]
  have hdrop : b.contents.drop (min n b.inQueue) = b.contents.drop n := by
    rcases Nat.le_total n b.inQueue with hle | hle
    · rw [Nat.min_eq_left hle]
    · rw [Nat.min_eq_right hle, List.drop_eq_nil_of_le (by simp), List.drop_eq_nil_of_le (by simpa using hle)]
  rcases h with h | h
  · obtain ⟨c, hc, hce, hcc, hok⟩ :=
      RingBuffer.popBytes_spec (b := b) (depth := depth) (min n b.inQueue) h (Nat.min_le_right _ _)
    by_cases h0 : 0 < min n b.inQueue
    · refine ⟨{ c with exposed := 0 }, ?_, .inl hok, ?_, ?_⟩
      · simp only [RingBuffer.popBulk, hc, if_pos h0, htake]
      · rw [hce, if_pos h0]
      · rw [← hdrop]; exact hcc
    · have hz : min n b.inQueue = 0 := by omega
      have hcb : c = b := by
        rw [hce, hz, Nat.add_zero, Nat.mod_eq_of_lt h.2.2.2.1.1, Nat.sub_zero]
      refine ⟨c, ?_, ?_, ?_, ?_⟩
      · simp only [RingBuffer.popBulk, hc, if_neg h0, htake]
      · rw [hcb]; exact .inl h
      · rw [if_neg h0, hce]
      · rw [← hdrop]; exact hcc
  · obtain ⟨hv, hs, hl, hn, hq, he⟩ := h
    have hz : min n b.inQueue = 0 := by omega
    have hnil : b.contents = [] := RingBuffer.contents_of_empty hq
    refine ⟨b, by simp [RingBuffer.popBulk, hq, RingBuffer.popBytes, hnil], .inr ⟨hv, hs, hl, hn, hq, he⟩, ?_, by simp [hnil]⟩
    have : b.lastChar % b.size = b.lastChar := by rw [hs, Nat.mod_zero]
    simp [hz, this]

/-- RB_INIT opens an empty buffer. -/
theorem RingBuffer.openAt_ok {b : RingBuffer} {depth n : Nat} (h1 : 1 ≤ n) (hd : n ≤ depth) :
    (b.openAt n).ok depth ∧ (b.openAt n).contents = [] :=
  ⟨.inl ⟨rfl, ⟨h1, hd⟩, Nat.zero_le _, ⟨h1, h1⟩, by simp [RingBuffer.openAt], Nat.zero_le _, Nat.zero_le _⟩, rfl⟩

/-- RB_CLOSE leaves a closed buffer. -/
theorem RingBuffer.close_ok (b : RingBuffer) (depth : Nat) : b.close.ok depth ∧ b.close.contents = [] :=
  ⟨.inr ⟨rfl, rfl, rfl, rfl, rfl, rfl⟩, rfl⟩

/-- LRESET empties a buffer and keeps it open or closed. -/
theorem RingBuffer.clear_ok {b : RingBuffer} {depth : Nat} (h : b.ok depth) :
    b.clear.ok depth ∧ b.clear.contents = [] := by
  refine ⟨?_, rfl⟩
  rcases h with ⟨hv, ⟨h1, hd⟩, _⟩ | ⟨hv, hs, _⟩
  · exact .inl ⟨hv, ⟨h1, hd⟩, Nat.zero_le _, ⟨h1, h1⟩, by simp [RingBuffer.clear], Nat.zero_le _, Nat.zero_le _⟩
  · exact .inr ⟨hv, hs, rfl, rfl, rfl, rfl⟩

end Sys2Proof.Machine
end

