-- ==== Sys2Proof/Laws/State.lean ====
section
/-! SUPPORT. What each update of the state does to each field: one lemma per field per update. -/

namespace Sys2Proof.Machine

/-! ### setRb -/

@[simp] theorem State.setRb_params (s : State) (d : Dir) (b : RingBuffer) : (s.setRb d b).params = s.params := by cases d <;> rfl
@[simp] theorem State.setRb_wmRx (s : State) (d : Dir) (b : RingBuffer) : (s.setRb d b).wmRx = s.wmRx := by cases d <;> rfl
@[simp] theorem State.setRb_wmTx (s : State) (d : Dir) (b : RingBuffer) : (s.setRb d b).wmTx = s.wmTx := by cases d <;> rfl
@[simp] theorem State.setRb_line (s : State) (d : Dir) (b : RingBuffer) : (s.setRb d b).line = s.line := by cases d <;> rfl
@[simp] theorem State.setRb_watchMask (s : State) (d : Dir) (b : RingBuffer) : (s.setRb d b).watchMask = s.watchMask := by cases d <;> rfl
@[simp] theorem State.setRb_terminating (s : State) (d : Dir) (b : RingBuffer) : (s.setRb d b).terminating = s.terminating := by cases d <;> rfl
@[simp] theorem State.setRb_bank (s : State) (d : Dir) (b : RingBuffer) : (s.setRb d b).bank = s.bank := by cases d <;> rfl
@[simp] theorem State.setRb_slots (s : State) (d : Dir) (b : RingBuffer) : (s.setRb d b).slots = s.slots := by cases d <;> rfl
@[simp] theorem State.setRb_xferH (s : State) (d : Dir) (b : RingBuffer) : (s.setRb d b).xferH = s.xferH := by cases d <;> rfl
@[simp] theorem State.setRb_xferW (s : State) (d : Dir) (b : RingBuffer) : (s.setRb d b).xferW = s.xferW := by cases d <;> rfl
@[simp] theorem State.setRb_issuer (s : State) (d : Dir) (b : RingBuffer) : (s.setRb d b).issuer = s.issuer := by cases d <;> rfl
@[simp] theorem State.setRb_pendH (s : State) (d : Dir) (b : RingBuffer) : (s.setRb d b).pendH = s.pendH := by cases d <;> rfl
@[simp] theorem State.setRb_pendW (s : State) (d : Dir) (b : RingBuffer) : (s.setRb d b).pendW = s.pendW := by cases d <;> rfl
@[simp] theorem State.setRb_schedule (s : State) (d : Dir) (b : RingBuffer) : (s.setRb d b).schedule = s.schedule := by cases d <;> rfl
@[simp] theorem State.setRb_outH (s : State) (d : Dir) (b : RingBuffer) : (s.setRb d b).outH = s.outH := by cases d <;> rfl
@[simp] theorem State.setRb_outW (s : State) (d : Dir) (b : RingBuffer) : (s.setRb d b).outW = s.outW := by cases d <;> rfl
@[simp] theorem State.setRb_outN (s : State) (d : Dir) (b : RingBuffer) : (s.setRb d b).outN = s.outN := by cases d <;> rfl

/-! ### setXfer -/

@[simp] theorem State.setXfer_params (s : State) (p : Port) (x : Xfer) : (s.setXfer p x).params = s.params := by cases p <;> rfl
@[simp] theorem State.setXfer_rx (s : State) (p : Port) (x : Xfer) : (s.setXfer p x).rx = s.rx := by cases p <;> rfl
@[simp] theorem State.setXfer_tx (s : State) (p : Port) (x : Xfer) : (s.setXfer p x).tx = s.tx := by cases p <;> rfl
@[simp] theorem State.setXfer_wmRx (s : State) (p : Port) (x : Xfer) : (s.setXfer p x).wmRx = s.wmRx := by cases p <;> rfl
@[simp] theorem State.setXfer_wmTx (s : State) (p : Port) (x : Xfer) : (s.setXfer p x).wmTx = s.wmTx := by cases p <;> rfl
@[simp] theorem State.setXfer_line (s : State) (p : Port) (x : Xfer) : (s.setXfer p x).line = s.line := by cases p <;> rfl
@[simp] theorem State.setXfer_watchMask (s : State) (p : Port) (x : Xfer) : (s.setXfer p x).watchMask = s.watchMask := by cases p <;> rfl
@[simp] theorem State.setXfer_terminating (s : State) (p : Port) (x : Xfer) : (s.setXfer p x).terminating = s.terminating := by cases p <;> rfl
@[simp] theorem State.setXfer_bank (s : State) (p : Port) (x : Xfer) : (s.setXfer p x).bank = s.bank := by cases p <;> rfl
@[simp] theorem State.setXfer_slots (s : State) (p : Port) (x : Xfer) : (s.setXfer p x).slots = s.slots := by cases p <;> rfl
@[simp] theorem State.setXfer_issuer (s : State) (p : Port) (x : Xfer) : (s.setXfer p x).issuer = s.issuer := by cases p <;> rfl
@[simp] theorem State.setXfer_pendH (s : State) (p : Port) (x : Xfer) : (s.setXfer p x).pendH = s.pendH := by cases p <;> rfl
@[simp] theorem State.setXfer_pendW (s : State) (p : Port) (x : Xfer) : (s.setXfer p x).pendW = s.pendW := by cases p <;> rfl
@[simp] theorem State.setXfer_schedule (s : State) (p : Port) (x : Xfer) : (s.setXfer p x).schedule = s.schedule := by cases p <;> rfl
@[simp] theorem State.setXfer_outH (s : State) (p : Port) (x : Xfer) : (s.setXfer p x).outH = s.outH := by cases p <;> rfl
@[simp] theorem State.setXfer_outW (s : State) (p : Port) (x : Xfer) : (s.setXfer p x).outW = s.outW := by cases p <;> rfl
@[simp] theorem State.setXfer_outN (s : State) (p : Port) (x : Xfer) : (s.setXfer p x).outN = s.outN := by cases p <;> rfl

/-! ### setPend -/

@[simp] theorem State.setPend_params (s : State) (p : Port) (cs : List Command) : (s.setPend p cs).params = s.params := by cases p <;> rfl
@[simp] theorem State.setPend_rx (s : State) (p : Port) (cs : List Command) : (s.setPend p cs).rx = s.rx := by cases p <;> rfl
@[simp] theorem State.setPend_tx (s : State) (p : Port) (cs : List Command) : (s.setPend p cs).tx = s.tx := by cases p <;> rfl
@[simp] theorem State.setPend_wmRx (s : State) (p : Port) (cs : List Command) : (s.setPend p cs).wmRx = s.wmRx := by cases p <;> rfl
@[simp] theorem State.setPend_wmTx (s : State) (p : Port) (cs : List Command) : (s.setPend p cs).wmTx = s.wmTx := by cases p <;> rfl
@[simp] theorem State.setPend_line (s : State) (p : Port) (cs : List Command) : (s.setPend p cs).line = s.line := by cases p <;> rfl
@[simp] theorem State.setPend_watchMask (s : State) (p : Port) (cs : List Command) : (s.setPend p cs).watchMask = s.watchMask := by cases p <;> rfl
@[simp] theorem State.setPend_terminating (s : State) (p : Port) (cs : List Command) : (s.setPend p cs).terminating = s.terminating := by cases p <;> rfl
@[simp] theorem State.setPend_bank (s : State) (p : Port) (cs : List Command) : (s.setPend p cs).bank = s.bank := by cases p <;> rfl
@[simp] theorem State.setPend_slots (s : State) (p : Port) (cs : List Command) : (s.setPend p cs).slots = s.slots := by cases p <;> rfl
@[simp] theorem State.setPend_xferH (s : State) (p : Port) (cs : List Command) : (s.setPend p cs).xferH = s.xferH := by cases p <;> rfl
@[simp] theorem State.setPend_xferW (s : State) (p : Port) (cs : List Command) : (s.setPend p cs).xferW = s.xferW := by cases p <;> rfl
@[simp] theorem State.setPend_issuer (s : State) (p : Port) (cs : List Command) : (s.setPend p cs).issuer = s.issuer := by cases p <;> rfl
@[simp] theorem State.setPend_schedule (s : State) (p : Port) (cs : List Command) : (s.setPend p cs).schedule = s.schedule := by cases p <;> rfl
@[simp] theorem State.setPend_outH (s : State) (p : Port) (cs : List Command) : (s.setPend p cs).outH = s.outH := by cases p <;> rfl
@[simp] theorem State.setPend_outW (s : State) (p : Port) (cs : List Command) : (s.setPend p cs).outW = s.outW := by cases p <;> rfl
@[simp] theorem State.setPend_outN (s : State) (p : Port) (cs : List Command) : (s.setPend p cs).outN = s.outN := by cases p <;> rfl

/-! ### taking -/

@[simp] theorem State.taking_params (s : State) (p : Port) (cs : List Command) : (s.taking p cs).params = s.params := by cases p <;> rfl
@[simp] theorem State.taking_rx (s : State) (p : Port) (cs : List Command) : (s.taking p cs).rx = s.rx := by cases p <;> rfl
@[simp] theorem State.taking_tx (s : State) (p : Port) (cs : List Command) : (s.taking p cs).tx = s.tx := by cases p <;> rfl
@[simp] theorem State.taking_wmRx (s : State) (p : Port) (cs : List Command) : (s.taking p cs).wmRx = s.wmRx := by cases p <;> rfl
@[simp] theorem State.taking_wmTx (s : State) (p : Port) (cs : List Command) : (s.taking p cs).wmTx = s.wmTx := by cases p <;> rfl
@[simp] theorem State.taking_line (s : State) (p : Port) (cs : List Command) : (s.taking p cs).line = s.line := by cases p <;> rfl
@[simp] theorem State.taking_watchMask (s : State) (p : Port) (cs : List Command) : (s.taking p cs).watchMask = s.watchMask := by cases p <;> rfl
@[simp] theorem State.taking_terminating (s : State) (p : Port) (cs : List Command) : (s.taking p cs).terminating = s.terminating := by cases p <;> rfl
@[simp] theorem State.taking_bank (s : State) (p : Port) (cs : List Command) : (s.taking p cs).bank = s.bank := by cases p <;> rfl
@[simp] theorem State.taking_slots (s : State) (p : Port) (cs : List Command) : (s.taking p cs).slots = s.slots := by cases p <;> rfl
@[simp] theorem State.taking_xferH (s : State) (p : Port) (cs : List Command) : (s.taking p cs).xferH = s.xferH := by cases p <;> rfl
@[simp] theorem State.taking_xferW (s : State) (p : Port) (cs : List Command) : (s.taking p cs).xferW = s.xferW := by cases p <;> rfl
@[simp] theorem State.taking_issuer (s : State) (p : Port) (cs : List Command) : (s.taking p cs).issuer = p := by cases p <;> rfl
@[simp] theorem State.taking_schedule (s : State) (p : Port) (cs : List Command) : (s.taking p cs).schedule = s.schedule := by cases p <;> rfl
@[simp] theorem State.taking_outH (s : State) (p : Port) (cs : List Command) : (s.taking p cs).outH = s.outH := by cases p <;> rfl
@[simp] theorem State.taking_outW (s : State) (p : Port) (cs : List Command) : (s.taking p cs).outW = s.outW := by cases p <;> rfl
@[simp] theorem State.taking_outN (s : State) (p : Port) (cs : List Command) : (s.taking p cs).outN = s.outN := by cases p <;> rfl

/-! ### send -/

@[simp] theorem State.send_params (s : State) (p : Port) (r : Response) : (s.send p r).params = s.params := by cases p <;> rfl
@[simp] theorem State.send_rx (s : State) (p : Port) (r : Response) : (s.send p r).rx = s.rx := by cases p <;> rfl
@[simp] theorem State.send_tx (s : State) (p : Port) (r : Response) : (s.send p r).tx = s.tx := by cases p <;> rfl
@[simp] theorem State.send_wmRx (s : State) (p : Port) (r : Response) : (s.send p r).wmRx = s.wmRx := by cases p <;> rfl
@[simp] theorem State.send_wmTx (s : State) (p : Port) (r : Response) : (s.send p r).wmTx = s.wmTx := by cases p <;> rfl
@[simp] theorem State.send_line (s : State) (p : Port) (r : Response) : (s.send p r).line = s.line := by cases p <;> rfl
@[simp] theorem State.send_watchMask (s : State) (p : Port) (r : Response) : (s.send p r).watchMask = s.watchMask := by cases p <;> rfl
@[simp] theorem State.send_terminating (s : State) (p : Port) (r : Response) : (s.send p r).terminating = s.terminating := by cases p <;> rfl
@[simp] theorem State.send_bank (s : State) (p : Port) (r : Response) : (s.send p r).bank = s.bank := by cases p <;> rfl
@[simp] theorem State.send_slots (s : State) (p : Port) (r : Response) : (s.send p r).slots = s.slots := by cases p <;> rfl
@[simp] theorem State.send_xferH (s : State) (p : Port) (r : Response) : (s.send p r).xferH = s.xferH := by cases p <;> rfl
@[simp] theorem State.send_xferW (s : State) (p : Port) (r : Response) : (s.send p r).xferW = s.xferW := by cases p <;> rfl
@[simp] theorem State.send_issuer (s : State) (p : Port) (r : Response) : (s.send p r).issuer = s.issuer := by cases p <;> rfl
@[simp] theorem State.send_pendH (s : State) (p : Port) (r : Response) : (s.send p r).pendH = s.pendH := by cases p <;> rfl
@[simp] theorem State.send_pendW (s : State) (p : Port) (r : Response) : (s.send p r).pendW = s.pendW := by cases p <;> rfl
@[simp] theorem State.send_schedule (s : State) (p : Port) (r : Response) : (s.send p r).schedule = s.schedule := by cases p <;> rfl
@[simp] theorem State.send_outN (s : State) (p : Port) (r : Response) : (s.send p r).outN = s.outN := by cases p <;> rfl

/-! ### notify -/

@[simp] theorem State.notify_params (s : State) (n : Notification) : (s.notify n).params = s.params := rfl
@[simp] theorem State.notify_rx (s : State) (n : Notification) : (s.notify n).rx = s.rx := rfl
@[simp] theorem State.notify_tx (s : State) (n : Notification) : (s.notify n).tx = s.tx := rfl
@[simp] theorem State.notify_wmRx (s : State) (n : Notification) : (s.notify n).wmRx = s.wmRx := rfl
@[simp] theorem State.notify_wmTx (s : State) (n : Notification) : (s.notify n).wmTx = s.wmTx := rfl
@[simp] theorem State.notify_line (s : State) (n : Notification) : (s.notify n).line = s.line := rfl
@[simp] theorem State.notify_watchMask (s : State) (n : Notification) : (s.notify n).watchMask = s.watchMask := rfl
@[simp] theorem State.notify_terminating (s : State) (n : Notification) : (s.notify n).terminating = s.terminating := rfl
@[simp] theorem State.notify_bank (s : State) (n : Notification) : (s.notify n).bank = s.bank := rfl
@[simp] theorem State.notify_slots (s : State) (n : Notification) : (s.notify n).slots = s.slots := rfl
@[simp] theorem State.notify_xferH (s : State) (n : Notification) : (s.notify n).xferH = s.xferH := rfl
@[simp] theorem State.notify_xferW (s : State) (n : Notification) : (s.notify n).xferW = s.xferW := rfl
@[simp] theorem State.notify_issuer (s : State) (n : Notification) : (s.notify n).issuer = s.issuer := rfl
@[simp] theorem State.notify_pendH (s : State) (n : Notification) : (s.notify n).pendH = s.pendH := rfl
@[simp] theorem State.notify_pendW (s : State) (n : Notification) : (s.notify n).pendW = s.pendW := rfl
@[simp] theorem State.notify_schedule (s : State) (n : Notification) : (s.notify n).schedule = s.schedule := rfl
@[simp] theorem State.notify_outH (s : State) (n : Notification) : (s.notify n).outH = s.outH := rfl
@[simp] theorem State.notify_outW (s : State) (n : Notification) : (s.notify n).outW = s.outW := rfl
@[simp] theorem State.notify_outN (s : State) (n : Notification) : (s.notify n).outN = s.outN ++ [n] := rfl

/-! ### wakeAll -/

@[simp] theorem State.wakeAll_params (s : State) : (s.wakeAll).params = s.params := rfl
@[simp] theorem State.wakeAll_rx (s : State) : (s.wakeAll).rx = s.rx := rfl
@[simp] theorem State.wakeAll_tx (s : State) : (s.wakeAll).tx = s.tx := rfl
@[simp] theorem State.wakeAll_wmRx (s : State) : (s.wakeAll).wmRx = s.wmRx := rfl
@[simp] theorem State.wakeAll_wmTx (s : State) : (s.wakeAll).wmTx = s.wmTx := rfl
@[simp] theorem State.wakeAll_line (s : State) : (s.wakeAll).line = s.line := rfl
@[simp] theorem State.wakeAll_watchMask (s : State) : (s.wakeAll).watchMask = 0#32 := rfl
@[simp] theorem State.wakeAll_terminating (s : State) : (s.wakeAll).terminating = s.terminating := rfl
@[simp] theorem State.wakeAll_bank (s : State) : (s.wakeAll).bank = s.bank := rfl
@[simp] theorem State.wakeAll_slots (s : State) : (s.wakeAll).slots = s.slots.map (Option.map Wait.wake) := rfl
@[simp] theorem State.wakeAll_xferH (s : State) : (s.wakeAll).xferH = s.xferH := rfl
@[simp] theorem State.wakeAll_xferW (s : State) : (s.wakeAll).xferW = s.xferW := rfl
@[simp] theorem State.wakeAll_issuer (s : State) : (s.wakeAll).issuer = s.issuer := rfl
@[simp] theorem State.wakeAll_pendH (s : State) : (s.wakeAll).pendH = s.pendH := rfl
@[simp] theorem State.wakeAll_pendW (s : State) : (s.wakeAll).pendW = s.pendW := rfl
@[simp] theorem State.wakeAll_schedule (s : State) : (s.wakeAll).schedule = s.schedule := rfl
@[simp] theorem State.wakeAll_outH (s : State) : (s.wakeAll).outH = s.outH := rfl
@[simp] theorem State.wakeAll_outW (s : State) : (s.wakeAll).outW = s.outW := rfl
@[simp] theorem State.wakeAll_outN (s : State) : (s.wakeAll).outN = s.outN := rfl

/-! ### setSlot -/

@[simp] theorem State.setSlot_params (s : State) (w : Nat) (o : Option Wait) : (s.setSlot w o).params = s.params := rfl
@[simp] theorem State.setSlot_rx (s : State) (w : Nat) (o : Option Wait) : (s.setSlot w o).rx = s.rx := rfl
@[simp] theorem State.setSlot_tx (s : State) (w : Nat) (o : Option Wait) : (s.setSlot w o).tx = s.tx := rfl
@[simp] theorem State.setSlot_wmRx (s : State) (w : Nat) (o : Option Wait) : (s.setSlot w o).wmRx = s.wmRx := rfl
@[simp] theorem State.setSlot_wmTx (s : State) (w : Nat) (o : Option Wait) : (s.setSlot w o).wmTx = s.wmTx := rfl
@[simp] theorem State.setSlot_line (s : State) (w : Nat) (o : Option Wait) : (s.setSlot w o).line = s.line := rfl
@[simp] theorem State.setSlot_watchMask (s : State) (w : Nat) (o : Option Wait) : (s.setSlot w o).watchMask = s.watchMask := rfl
@[simp] theorem State.setSlot_terminating (s : State) (w : Nat) (o : Option Wait) : (s.setSlot w o).terminating = s.terminating := rfl
@[simp] theorem State.setSlot_bank (s : State) (w : Nat) (o : Option Wait) : (s.setSlot w o).bank = s.bank := rfl
@[simp] theorem State.setSlot_slots (s : State) (w : Nat) (o : Option Wait) : (s.setSlot w o).slots = s.slots.set w o := rfl
@[simp] theorem State.setSlot_xferH (s : State) (w : Nat) (o : Option Wait) : (s.setSlot w o).xferH = s.xferH := rfl
@[simp] theorem State.setSlot_xferW (s : State) (w : Nat) (o : Option Wait) : (s.setSlot w o).xferW = s.xferW := rfl
@[simp] theorem State.setSlot_issuer (s : State) (w : Nat) (o : Option Wait) : (s.setSlot w o).issuer = s.issuer := rfl
@[simp] theorem State.setSlot_pendH (s : State) (w : Nat) (o : Option Wait) : (s.setSlot w o).pendH = s.pendH := rfl
@[simp] theorem State.setSlot_pendW (s : State) (w : Nat) (o : Option Wait) : (s.setSlot w o).pendW = s.pendW := rfl
@[simp] theorem State.setSlot_schedule (s : State) (w : Nat) (o : Option Wait) : (s.setSlot w o).schedule = s.schedule := rfl
@[simp] theorem State.setSlot_outH (s : State) (w : Nat) (o : Option Wait) : (s.setSlot w o).outH = s.outH := rfl
@[simp] theorem State.setSlot_outW (s : State) (w : Nat) (o : Option Wait) : (s.setSlot w o).outW = s.outW := rfl
@[simp] theorem State.setSlot_outN (s : State) (w : Nat) (o : Option Wait) : (s.setSlot w o).outN = s.outN := rfl

/-! ### setBank -/

@[simp] theorem State.setBank_params (s : State) (k : LinkBank) : (s.setBank k).params = s.params := rfl
@[simp] theorem State.setBank_rx (s : State) (k : LinkBank) : (s.setBank k).rx = s.rx := rfl
@[simp] theorem State.setBank_tx (s : State) (k : LinkBank) : (s.setBank k).tx = s.tx := rfl
@[simp] theorem State.setBank_wmRx (s : State) (k : LinkBank) : (s.setBank k).wmRx = s.wmRx := rfl
@[simp] theorem State.setBank_wmTx (s : State) (k : LinkBank) : (s.setBank k).wmTx = s.wmTx := rfl
@[simp] theorem State.setBank_line (s : State) (k : LinkBank) : (s.setBank k).line = s.line := rfl
@[simp] theorem State.setBank_watchMask (s : State) (k : LinkBank) : (s.setBank k).watchMask = s.watchMask := rfl
@[simp] theorem State.setBank_terminating (s : State) (k : LinkBank) : (s.setBank k).terminating = s.terminating := rfl
@[simp] theorem State.setBank_bank (s : State) (k : LinkBank) : (s.setBank k).bank = k := rfl
@[simp] theorem State.setBank_slots (s : State) (k : LinkBank) : (s.setBank k).slots = s.slots := rfl
@[simp] theorem State.setBank_xferH (s : State) (k : LinkBank) : (s.setBank k).xferH = s.xferH := rfl
@[simp] theorem State.setBank_xferW (s : State) (k : LinkBank) : (s.setBank k).xferW = s.xferW := rfl
@[simp] theorem State.setBank_issuer (s : State) (k : LinkBank) : (s.setBank k).issuer = s.issuer := rfl
@[simp] theorem State.setBank_pendH (s : State) (k : LinkBank) : (s.setBank k).pendH = s.pendH := rfl
@[simp] theorem State.setBank_pendW (s : State) (k : LinkBank) : (s.setBank k).pendW = s.pendW := rfl
@[simp] theorem State.setBank_schedule (s : State) (k : LinkBank) : (s.setBank k).schedule = s.schedule := rfl
@[simp] theorem State.setBank_outH (s : State) (k : LinkBank) : (s.setBank k).outH = s.outH := rfl
@[simp] theorem State.setBank_outW (s : State) (k : LinkBank) : (s.setBank k).outW = s.outW := rfl
@[simp] theorem State.setBank_outN (s : State) (k : LinkBank) : (s.setBank k).outN = s.outN := rfl

/-! ### linkDefaults -/

@[simp] theorem State.linkDefaults_params (s : State) : (s.linkDefaults).params = s.params := rfl
@[simp] theorem State.linkDefaults_rx (s : State) : (s.linkDefaults).rx = s.rx := rfl
@[simp] theorem State.linkDefaults_tx (s : State) : (s.linkDefaults).tx = s.tx := rfl
@[simp] theorem State.linkDefaults_wmRx (s : State) : (s.linkDefaults).wmRx = s.wmRx := rfl
@[simp] theorem State.linkDefaults_wmTx (s : State) : (s.linkDefaults).wmTx = s.wmTx := rfl
@[simp] theorem State.linkDefaults_line (s : State) : (s.linkDefaults).line = s.line := rfl
@[simp] theorem State.linkDefaults_watchMask (s : State) : (s.linkDefaults).watchMask = s.watchMask := rfl
@[simp] theorem State.linkDefaults_terminating (s : State) : (s.linkDefaults).terminating = s.terminating := rfl
@[simp] theorem State.linkDefaults_bank (s : State) : (s.linkDefaults).bank = LinkBank.defaults := rfl
@[simp] theorem State.linkDefaults_slots (s : State) : (s.linkDefaults).slots = s.slots := rfl
@[simp] theorem State.linkDefaults_xferH (s : State) : (s.linkDefaults).xferH = s.xferH := rfl
@[simp] theorem State.linkDefaults_xferW (s : State) : (s.linkDefaults).xferW = s.xferW := rfl
@[simp] theorem State.linkDefaults_issuer (s : State) : (s.linkDefaults).issuer = s.issuer := rfl
@[simp] theorem State.linkDefaults_pendH (s : State) : (s.linkDefaults).pendH = s.pendH := rfl
@[simp] theorem State.linkDefaults_pendW (s : State) : (s.linkDefaults).pendW = s.pendW := rfl
@[simp] theorem State.linkDefaults_schedule (s : State) : (s.linkDefaults).schedule = s.schedule := rfl
@[simp] theorem State.linkDefaults_outH (s : State) : (s.linkDefaults).outH = s.outH := rfl
@[simp] theorem State.linkDefaults_outW (s : State) : (s.linkDefaults).outW = s.outW := rfl
@[simp] theorem State.linkDefaults_outN (s : State) : (s.linkDefaults).outN = s.outN := rfl

/-! ### rebuild -/

@[simp] theorem State.rebuild_params (s : State) : (s.rebuild).params = s.params := rfl
@[simp] theorem State.rebuild_rx (s : State) : (s.rebuild).rx = s.rx.openAt s.params.depthRx := rfl
@[simp] theorem State.rebuild_tx (s : State) : (s.rebuild).tx = s.tx.openAt s.params.depthTx := rfl
@[simp] theorem State.rebuild_wmRx (s : State) : (s.rebuild).wmRx = Watermarks.ofDepth s.params.depthRx := rfl
@[simp] theorem State.rebuild_wmTx (s : State) : (s.rebuild).wmTx = Watermarks.ofDepth s.params.depthTx := rfl
@[simp] theorem State.rebuild_line (s : State) : (s.rebuild).line = s.line := rfl
@[simp] theorem State.rebuild_watchMask (s : State) : (s.rebuild).watchMask = s.watchMask := rfl
@[simp] theorem State.rebuild_terminating (s : State) : (s.rebuild).terminating = s.terminating := rfl
@[simp] theorem State.rebuild_bank (s : State) : (s.rebuild).bank = LinkBank.defaults := rfl
@[simp] theorem State.rebuild_slots (s : State) : (s.rebuild).slots = s.slots := rfl
@[simp] theorem State.rebuild_xferH (s : State) : (s.rebuild).xferH = s.xferH := rfl
@[simp] theorem State.rebuild_xferW (s : State) : (s.rebuild).xferW = s.xferW := rfl
@[simp] theorem State.rebuild_issuer (s : State) : (s.rebuild).issuer = s.issuer := rfl
@[simp] theorem State.rebuild_pendH (s : State) : (s.rebuild).pendH = s.pendH := rfl
@[simp] theorem State.rebuild_pendW (s : State) : (s.rebuild).pendW = s.pendW := rfl
@[simp] theorem State.rebuild_schedule (s : State) : (s.rebuild).schedule = s.schedule := rfl
@[simp] theorem State.rebuild_outH (s : State) : (s.rebuild).outH = s.outH := rfl
@[simp] theorem State.rebuild_outW (s : State) : (s.rebuild).outW = s.outW := rfl
@[simp] theorem State.rebuild_outN (s : State) : (s.rebuild).outN = s.outN := rfl

/-! ### park -/

@[simp] theorem State.park_params (s : State) (tag : Tag) (x : Wait) : (s.park tag x).params = s.params := rfl
@[simp] theorem State.park_rx (s : State) (tag : Tag) (x : Wait) : (s.park tag x).rx = s.rx := rfl
@[simp] theorem State.park_tx (s : State) (tag : Tag) (x : Wait) : (s.park tag x).tx = s.tx := rfl
@[simp] theorem State.park_wmRx (s : State) (tag : Tag) (x : Wait) : (s.park tag x).wmRx = s.wmRx := rfl
@[simp] theorem State.park_wmTx (s : State) (tag : Tag) (x : Wait) : (s.park tag x).wmTx = s.wmTx := rfl
@[simp] theorem State.park_line (s : State) (tag : Tag) (x : Wait) : (s.park tag x).line = s.line := rfl
@[simp] theorem State.park_watchMask (s : State) (tag : Tag) (x : Wait) : (s.park tag x).watchMask = s.watchMask ||| x.interest := rfl
@[simp] theorem State.park_terminating (s : State) (tag : Tag) (x : Wait) : (s.park tag x).terminating = s.terminating := rfl
@[simp] theorem State.park_bank (s : State) (tag : Tag) (x : Wait) : (s.park tag x).bank = s.bank := rfl
@[simp] theorem State.park_slots (s : State) (tag : Tag) (x : Wait) : (s.park tag x).slots = s.slots.set tag.toNat (some x) := rfl
@[simp] theorem State.park_xferH (s : State) (tag : Tag) (x : Wait) : (s.park tag x).xferH = s.xferH := rfl
@[simp] theorem State.park_xferW (s : State) (tag : Tag) (x : Wait) : (s.park tag x).xferW = s.xferW := rfl
@[simp] theorem State.park_issuer (s : State) (tag : Tag) (x : Wait) : (s.park tag x).issuer = s.issuer := rfl
@[simp] theorem State.park_pendH (s : State) (tag : Tag) (x : Wait) : (s.park tag x).pendH = s.pendH := rfl
@[simp] theorem State.park_pendW (s : State) (tag : Tag) (x : Wait) : (s.park tag x).pendW = s.pendW := rfl
@[simp] theorem State.park_schedule (s : State) (tag : Tag) (x : Wait) : (s.park tag x).schedule = s.schedule := rfl
@[simp] theorem State.park_outH (s : State) (tag : Tag) (x : Wait) : (s.park tag x).outH = s.outH := rfl
@[simp] theorem State.park_outW (s : State) (tag : Tag) (x : Wait) : (s.park tag x).outW = s.outW := rfl
@[simp] theorem State.park_outN (s : State) (tag : Tag) (x : Wait) : (s.park tag x).outN = s.outN := rfl

/-! ### repark -/

@[simp] theorem State.repark_params (s : State) (w : Nat) (x : Wait) : (s.repark w x).params = s.params := rfl
@[simp] theorem State.repark_rx (s : State) (w : Nat) (x : Wait) : (s.repark w x).rx = s.rx := rfl
@[simp] theorem State.repark_tx (s : State) (w : Nat) (x : Wait) : (s.repark w x).tx = s.tx := rfl
@[simp] theorem State.repark_wmRx (s : State) (w : Nat) (x : Wait) : (s.repark w x).wmRx = s.wmRx := rfl
@[simp] theorem State.repark_wmTx (s : State) (w : Nat) (x : Wait) : (s.repark w x).wmTx = s.wmTx := rfl
@[simp] theorem State.repark_line (s : State) (w : Nat) (x : Wait) : (s.repark w x).line = s.line := rfl
@[simp] theorem State.repark_watchMask (s : State) (w : Nat) (x : Wait) : (s.repark w x).watchMask = s.watchMask ||| x.interest := rfl
@[simp] theorem State.repark_terminating (s : State) (w : Nat) (x : Wait) : (s.repark w x).terminating = s.terminating := rfl
@[simp] theorem State.repark_bank (s : State) (w : Nat) (x : Wait) : (s.repark w x).bank = s.bank := rfl
@[simp] theorem State.repark_slots (s : State) (w : Nat) (x : Wait) : (s.repark w x).slots = s.slots.set w (some { x with awake := false }) := rfl
@[simp] theorem State.repark_xferH (s : State) (w : Nat) (x : Wait) : (s.repark w x).xferH = s.xferH := rfl
@[simp] theorem State.repark_xferW (s : State) (w : Nat) (x : Wait) : (s.repark w x).xferW = s.xferW := rfl
@[simp] theorem State.repark_issuer (s : State) (w : Nat) (x : Wait) : (s.repark w x).issuer = s.issuer := rfl
@[simp] theorem State.repark_pendH (s : State) (w : Nat) (x : Wait) : (s.repark w x).pendH = s.pendH := rfl
@[simp] theorem State.repark_pendW (s : State) (w : Nat) (x : Wait) : (s.repark w x).pendW = s.pendW := rfl
@[simp] theorem State.repark_schedule (s : State) (w : Nat) (x : Wait) : (s.repark w x).schedule = s.schedule := rfl
@[simp] theorem State.repark_outH (s : State) (w : Nat) (x : Wait) : (s.repark w x).outH = s.outH := rfl
@[simp] theorem State.repark_outW (s : State) (w : Nat) (x : Wait) : (s.repark w x).outW = s.outW := rfl
@[simp] theorem State.repark_outN (s : State) (w : Nat) (x : Wait) : (s.repark w x).outN = s.outN := rfl

/-! ### respond -/

@[simp] theorem State.respond_params (s : State) (r : Response) : (s.respond r).params = s.params := by
  simp [State.respond]
@[simp] theorem State.respond_rx (s : State) (r : Response) : (s.respond r).rx = s.rx := by
  simp [State.respond]
@[simp] theorem State.respond_tx (s : State) (r : Response) : (s.respond r).tx = s.tx := by
  simp [State.respond]
@[simp] theorem State.respond_wmRx (s : State) (r : Response) : (s.respond r).wmRx = s.wmRx := by
  simp [State.respond]
@[simp] theorem State.respond_wmTx (s : State) (r : Response) : (s.respond r).wmTx = s.wmTx := by
  simp [State.respond]
@[simp] theorem State.respond_line (s : State) (r : Response) : (s.respond r).line = s.line := by
  simp [State.respond]
@[simp] theorem State.respond_watchMask (s : State) (r : Response) : (s.respond r).watchMask = s.watchMask := by
  simp [State.respond]
@[simp] theorem State.respond_terminating (s : State) (r : Response) : (s.respond r).terminating = s.terminating := by
  simp [State.respond]
@[simp] theorem State.respond_bank (s : State) (r : Response) : (s.respond r).bank = s.bank := by
  simp [State.respond]
@[simp] theorem State.respond_slots (s : State) (r : Response) : (s.respond r).slots = s.slots := by
  simp [State.respond]
@[simp] theorem State.respond_xferH (s : State) (r : Response) : (s.respond r).xferH = s.xferH := by
  simp [State.respond]
@[simp] theorem State.respond_xferW (s : State) (r : Response) : (s.respond r).xferW = s.xferW := by
  simp [State.respond]
@[simp] theorem State.respond_issuer (s : State) (r : Response) : (s.respond r).issuer = s.issuer := by
  simp [State.respond]
@[simp] theorem State.respond_pendH (s : State) (r : Response) : (s.respond r).pendH = s.pendH := by
  simp [State.respond]
@[simp] theorem State.respond_pendW (s : State) (r : Response) : (s.respond r).pendW = s.pendW := by
  simp [State.respond]
@[simp] theorem State.respond_schedule (s : State) (r : Response) : (s.respond r).schedule = s.schedule := by
  simp [State.respond]
@[simp] theorem State.respond_outN (s : State) (r : Response) : (s.respond r).outN = s.outN := by
  simp [State.respond]

/-! ### complete -/

@[simp] theorem State.complete_params (s : State) (w : Nat) (x : Wait) (k : Status) (d0 : Word) : (s.complete w x k d0).params = s.params := by
  simp [State.complete]
@[simp] theorem State.complete_rx (s : State) (w : Nat) (x : Wait) (k : Status) (d0 : Word) : (s.complete w x k d0).rx = s.rx := by
  simp [State.complete]
@[simp] theorem State.complete_tx (s : State) (w : Nat) (x : Wait) (k : Status) (d0 : Word) : (s.complete w x k d0).tx = s.tx := by
  simp [State.complete]
@[simp] theorem State.complete_wmRx (s : State) (w : Nat) (x : Wait) (k : Status) (d0 : Word) : (s.complete w x k d0).wmRx = s.wmRx := by
  simp [State.complete]
@[simp] theorem State.complete_wmTx (s : State) (w : Nat) (x : Wait) (k : Status) (d0 : Word) : (s.complete w x k d0).wmTx = s.wmTx := by
  simp [State.complete]
@[simp] theorem State.complete_line (s : State) (w : Nat) (x : Wait) (k : Status) (d0 : Word) : (s.complete w x k d0).line = s.line := by
  simp [State.complete]
@[simp] theorem State.complete_watchMask (s : State) (w : Nat) (x : Wait) (k : Status) (d0 : Word) : (s.complete w x k d0).watchMask = s.watchMask := by
  simp [State.complete]
@[simp] theorem State.complete_terminating (s : State) (w : Nat) (x : Wait) (k : Status) (d0 : Word) : (s.complete w x k d0).terminating = s.terminating := by
  simp [State.complete]
@[simp] theorem State.complete_bank (s : State) (w : Nat) (x : Wait) (k : Status) (d0 : Word) : (s.complete w x k d0).bank = s.bank := by
  simp [State.complete]
@[simp] theorem State.complete_slots (s : State) (w : Nat) (x : Wait) (k : Status) (d0 : Word) : (s.complete w x k d0).slots = s.slots.set w none := by
  simp [State.complete]
@[simp] theorem State.complete_xferH (s : State) (w : Nat) (x : Wait) (k : Status) (d0 : Word) : (s.complete w x k d0).xferH = s.xferH := by
  simp [State.complete]
@[simp] theorem State.complete_xferW (s : State) (w : Nat) (x : Wait) (k : Status) (d0 : Word) : (s.complete w x k d0).xferW = s.xferW := by
  simp [State.complete]
@[simp] theorem State.complete_issuer (s : State) (w : Nat) (x : Wait) (k : Status) (d0 : Word) : (s.complete w x k d0).issuer = s.issuer := by
  simp [State.complete]
@[simp] theorem State.complete_pendH (s : State) (w : Nat) (x : Wait) (k : Status) (d0 : Word) : (s.complete w x k d0).pendH = s.pendH := by
  simp [State.complete]
@[simp] theorem State.complete_pendW (s : State) (w : Nat) (x : Wait) (k : Status) (d0 : Word) : (s.complete w x k d0).pendW = s.pendW := by
  simp [State.complete]
@[simp] theorem State.complete_schedule (s : State) (w : Nat) (x : Wait) (k : Status) (d0 : Word) : (s.complete w x k d0).schedule = s.schedule := by
  simp [State.complete]
@[simp] theorem State.complete_outN (s : State) (w : Nat) (x : Wait) (k : Status) (d0 : Word) : (s.complete w x k d0).outN = s.outN := by
  simp [State.complete]

/-! ### Reading back a piece that was replaced -/

@[simp] theorem State.setRb_rb_self (s : State) (d : Dir) (b : RingBuffer) : (s.setRb d b).rb d = b := by cases d <;> rfl
theorem State.setRb_rb_ne (s : State) (d e : Dir) (b : RingBuffer) (h : e ≠ d) : (s.setRb d b).rb e = s.rb e := by
  cases d <;> cases e <;> first | rfl | exact absurd rfl h
@[simp] theorem State.setXfer_xfer_self (s : State) (p : Port) (x : Xfer) : (s.setXfer p x).xfer p = x := by
  cases p <;> rfl
theorem State.setXfer_xfer_ne (s : State) (p q : Port) (x : Xfer) (h : q ≠ p) : (s.setXfer p x).xfer q = s.xfer q := by
  cases p <;> cases q <;> first | rfl | exact absurd rfl h
@[simp] theorem State.setPend_pend_self (s : State) (p : Port) (cs : List Command) : (s.setPend p cs).pend p = cs := by
  cases p <;> rfl
@[simp] theorem State.send_out_self (s : State) (p : Port) (r : Response) : (s.send p r).out p = s.out p ++ [r] := by
  cases p <;> rfl
theorem State.send_out_ne (s : State) (p q : Port) (r : Response) (h : q ≠ p) : (s.send p r).out q = s.out q := by
  cases p <;> cases q <;> first | rfl | exact absurd rfl h
@[simp] theorem State.setRb_rb_same (s : State) (d : Dir) : s.setRb d (s.rb d) = s := by cases d <;> rfl
@[simp] theorem State.setXfer_xfer_same (s : State) (p : Port) : s.setXfer p (s.xfer p) = s := by cases p <;> rfl
@[simp] theorem State.setRb_setRb (s : State) (d : Dir) (b c : RingBuffer) : (s.setRb d b).setRb d c = s.setRb d c := by
  cases d <;> rfl

/-! ### Pieces that an update leaves alone -/

@[simp] theorem State.send_rb (s : State) (p : Port) (r : Response) (d : Dir) : (s.send p r).rb d = s.rb d := by
  cases d <;> simp [State.rb]
@[simp] theorem State.send_wm (s : State) (p : Port) (r : Response) (d : Dir) : (s.send p r).wm d = s.wm d := by
  cases d <;> simp [State.wm]
@[simp] theorem State.send_depth (s : State) (p : Port) (r : Response) (d : Dir) : (s.send p r).depth d = s.depth d := by
  cases d <;> simp [State.depth]
@[simp] theorem State.respond_rb (s : State) (r : Response) (d : Dir) : (s.respond r).rb d = s.rb d := by
  cases d <;> simp [State.rb]
@[simp] theorem State.respond_wm (s : State) (r : Response) (d : Dir) : (s.respond r).wm d = s.wm d := by
  cases d <;> simp [State.wm]
@[simp] theorem State.respond_depth (s : State) (r : Response) (d : Dir) : (s.respond r).depth d = s.depth d := by
  cases d <;> simp [State.depth]
@[simp] theorem State.notify_rb (s : State) (n : Notification) (d : Dir) : (s.notify n).rb d = s.rb d := by
  cases d <;> simp [State.rb]
@[simp] theorem State.notify_wm (s : State) (n : Notification) (d : Dir) : (s.notify n).wm d = s.wm d := by
  cases d <;> simp [State.wm]
@[simp] theorem State.notify_depth (s : State) (n : Notification) (d : Dir) : (s.notify n).depth d = s.depth d := by
  cases d <;> simp [State.depth]
@[simp] theorem State.wakeAll_rb (s : State)  (d : Dir) : (s.wakeAll).rb d = s.rb d := by
  cases d <;> simp [State.rb]
@[simp] theorem State.wakeAll_wm (s : State)  (d : Dir) : (s.wakeAll).wm d = s.wm d := by
  cases d <;> simp [State.wm]
@[simp] theorem State.wakeAll_depth (s : State)  (d : Dir) : (s.wakeAll).depth d = s.depth d := by
  cases d <;> simp [State.depth]
@[simp] theorem State.setSlot_rb (s : State) (w : Nat) (o : Option Wait) (d : Dir) : (s.setSlot w o).rb d = s.rb d := by
  cases d <;> simp [State.rb]
@[simp] theorem State.setSlot_wm (s : State) (w : Nat) (o : Option Wait) (d : Dir) : (s.setSlot w o).wm d = s.wm d := by
  cases d <;> simp [State.wm]
@[simp] theorem State.setSlot_depth (s : State) (w : Nat) (o : Option Wait) (d : Dir) : (s.setSlot w o).depth d = s.depth d := by
  cases d <;> simp [State.depth]
@[simp] theorem State.setBank_rb (s : State) (k : LinkBank) (d : Dir) : (s.setBank k).rb d = s.rb d := by
  cases d <;> simp [State.rb]
@[simp] theorem State.setBank_wm (s : State) (k : LinkBank) (d : Dir) : (s.setBank k).wm d = s.wm d := by
  cases d <;> simp [State.wm]
@[simp] theorem State.setBank_depth (s : State) (k : LinkBank) (d : Dir) : (s.setBank k).depth d = s.depth d := by
  cases d <;> simp [State.depth]
@[simp] theorem State.setXfer_rb (s : State) (p : Port) (x : Xfer) (d : Dir) : (s.setXfer p x).rb d = s.rb d := by
  cases d <;> simp [State.rb]
@[simp] theorem State.setXfer_wm (s : State) (p : Port) (x : Xfer) (d : Dir) : (s.setXfer p x).wm d = s.wm d := by
  cases d <;> simp [State.wm]
@[simp] theorem State.setXfer_depth (s : State) (p : Port) (x : Xfer) (d : Dir) : (s.setXfer p x).depth d = s.depth d := by
  cases d <;> simp [State.depth]
@[simp] theorem State.park_rb (s : State) (tag : Tag) (x : Wait) (d : Dir) : (s.park tag x).rb d = s.rb d := by
  cases d <;> simp [State.rb]
@[simp] theorem State.park_wm (s : State) (tag : Tag) (x : Wait) (d : Dir) : (s.park tag x).wm d = s.wm d := by
  cases d <;> simp [State.wm]
@[simp] theorem State.park_depth (s : State) (tag : Tag) (x : Wait) (d : Dir) : (s.park tag x).depth d = s.depth d := by
  cases d <;> simp [State.depth]
@[simp] theorem State.repark_rb (s : State) (w : Nat) (x : Wait) (d : Dir) : (s.repark w x).rb d = s.rb d := by
  cases d <;> simp [State.rb]
@[simp] theorem State.repark_wm (s : State) (w : Nat) (x : Wait) (d : Dir) : (s.repark w x).wm d = s.wm d := by
  cases d <;> simp [State.wm]
@[simp] theorem State.repark_depth (s : State) (w : Nat) (x : Wait) (d : Dir) : (s.repark w x).depth d = s.depth d := by
  cases d <;> simp [State.depth]
@[simp] theorem State.setRb_wm (s : State) (d : Dir) (b : RingBuffer) (e : Dir) : (s.setRb d b).wm e = s.wm e := by
  cases e <;> simp [State.wm]
@[simp] theorem State.setRb_depth (s : State) (d : Dir) (b : RingBuffer) (e : Dir) : (s.setRb d b).depth e = s.depth e := by
  cases e <;> simp [State.depth]

end Sys2Proof.Machine
end

