-- ==== Sys2Proof/Laws/Ops.lean ====
section
/-! SUPPORT. What each shared operation can do, said once: the change-state path, the fold, the acquisition, wakes and
completions, and the interests behind `WatchMask`. -/

namespace Sys2Proof.Machine

/-! ### Answers -/

@[simp] theorem State.respond_out_self (s : State) (r : Response) : (s.respond r).out s.issuer = s.out s.issuer ++ [r] :=
  State.send_out_self s s.issuer r

/-- Raising an error is answering with that status and nothing else. -/
theorem State.raise_eq (s : State) (k : Status) (opc : Byte) (tag : Tag) :
    s.raise k opc tag = s.respond { status := k, opc := opc, tag := tag } := rfl

/-! ### The change-state path (R150, R151) -/

/-- Whether a change of state wakes the waiters. -/
abbrev State.wakes (s : State) (newBits mask : Word) : Prop :=
  (s.line ^^^ mergeBits s.line newBits mask) &&& s.watchMask ≠ 0#32

/-- Everything the change-state path does. -/
theorem State.changeState_eq (s : State) (newBits mask : Word) :
    s.changeState newBits mask =
      { s with
        line := mergeBits s.line newBits mask
        watchMask := if s.wakes newBits mask then 0#32 else s.watchMask
        slots := if s.wakes newBits mask then s.slots.map (Option.map Wait.wake) else s.slots
        outN := s.outN ++
          if s.line ^^^ mergeBits s.line newBits mask ≠ 0#32 then [.stateChanged (mergeBits s.line newBits mask)] else [] } := by
  unfold State.changeState State.notifyIfChanged State.wakeIfWatched State.wakeAll State.notify State.wakes
  simp only
  split <;> split <;> simp

@[simp] theorem State.changeState_line (s : State) (n m : Word) : (s.changeState n m).line = mergeBits s.line n m := by
  rw [State.changeState_eq]
@[simp] theorem State.changeState_params (s : State) (n m : Word) : (s.changeState n m).params = s.params := by
  rw [State.changeState_eq]
@[simp] theorem State.changeState_rx (s : State) (n m : Word) : (s.changeState n m).rx = s.rx := by
  rw [State.changeState_eq]
@[simp] theorem State.changeState_tx (s : State) (n m : Word) : (s.changeState n m).tx = s.tx := by
  rw [State.changeState_eq]
@[simp] theorem State.changeState_wmRx (s : State) (n m : Word) : (s.changeState n m).wmRx = s.wmRx := by
  rw [State.changeState_eq]
@[simp] theorem State.changeState_wmTx (s : State) (n m : Word) : (s.changeState n m).wmTx = s.wmTx := by
  rw [State.changeState_eq]
@[simp] theorem State.changeState_terminating (s : State) (n m : Word) :
    (s.changeState n m).terminating = s.terminating := by rw [State.changeState_eq]
@[simp] theorem State.changeState_bank (s : State) (n m : Word) : (s.changeState n m).bank = s.bank := by
  rw [State.changeState_eq]
@[simp] theorem State.changeState_xferH (s : State) (n m : Word) : (s.changeState n m).xferH = s.xferH := by
  rw [State.changeState_eq]
@[simp] theorem State.changeState_xferW (s : State) (n m : Word) : (s.changeState n m).xferW = s.xferW := by
  rw [State.changeState_eq]
@[simp] theorem State.changeState_issuer (s : State) (n m : Word) : (s.changeState n m).issuer = s.issuer := by
  rw [State.changeState_eq]
@[simp] theorem State.changeState_pendH (s : State) (n m : Word) : (s.changeState n m).pendH = s.pendH := by
  rw [State.changeState_eq]
@[simp] theorem State.changeState_pendW (s : State) (n m : Word) : (s.changeState n m).pendW = s.pendW := by
  rw [State.changeState_eq]
@[simp] theorem State.changeState_schedule (s : State) (n m : Word) : (s.changeState n m).schedule = s.schedule := by
  rw [State.changeState_eq]
@[simp] theorem State.changeState_outH (s : State) (n m : Word) : (s.changeState n m).outH = s.outH := by
  rw [State.changeState_eq]
@[simp] theorem State.changeState_outW (s : State) (n m : Word) : (s.changeState n m).outW = s.outW := by
  rw [State.changeState_eq]
theorem State.changeState_watchMask (s : State) (n m : Word) :
    (s.changeState n m).watchMask = if s.wakes n m then 0#32 else s.watchMask := by
  rw [State.changeState_eq]
theorem State.changeState_slots (s : State) (n m : Word) :
    (s.changeState n m).slots = if s.wakes n m then s.slots.map (Option.map Wait.wake) else s.slots := by
  rw [State.changeState_eq]
theorem State.changeState_outN (s : State) (n m : Word) :
    (s.changeState n m).outN = s.outN ++
      if s.line ^^^ mergeBits s.line n m ≠ 0#32 then [.stateChanged (mergeBits s.line n m)] else [] := by
  rw [State.changeState_eq]

@[simp] theorem State.changeState_slots_length (s : State) (n m : Word) :
    (s.changeState n m).slots.length = s.slots.length := by
  rw [State.changeState_slots]; split <;> simp

/-! ### Bit facts of the update formula -/

theorem mergeBits_bit (old n m : Word) (i : Nat) :
    (mergeBits old n m).getLsbD i = if m.getLsbD i then n.getLsbD i else old.getLsbD i := by
  by_cases hi : i < 32
  · simp only [mergeBits, BitVec.getLsbD_or, BitVec.getLsbD_and, BitVec.getLsbD_not, hi, decide_true, Bool.true_and]
    cases m.getLsbD i <;> simp
  · have hge : 32 ≤ i := Nat.le_of_not_lt hi
    simp [mergeBits, BitVec.getLsbD_of_ge, hge]

/-- A change whose mask is the whole word writes the whole word. -/
theorem mergeBits_all (old n : Word) : mergeBits old n Mask.all = n := by
  apply BitVec.eq_of_getLsbD_eq
  intro i hi
  rw [mergeBits_bit, if_pos]
  simp only [Mask.all]
  have : (0xFFFFFFFF#32 : Word) = BitVec.allOnes 32 := by decide
  rw [this, BitVec.getLsbD_allOnes]
  simpa using hi

/-! ### Queue bits (R261) -/

theorem fullEmptyBits_queue (b : RingBuffer) {full empty : Word} (hf : full &&& ~~~Mask.queue = 0#32)
    (he : empty &&& ~~~Mask.queue = 0#32) : fullEmptyBits b full empty &&& ~~~Mask.queue = 0#32 := by
  unfold fullEmptyBits
  split
  · exact hf
  · split
    · exact he
    · simp

theorem bitIf_queue (c : Prop) [Decidable c] {bit : Word} (h : bit &&& ~~~Mask.queue = 0#32) :
    bitIf c bit &&& ~~~Mask.queue = 0#32 := by
  unfold bitIf
  split
  · exact h
  · simp

theorem and_or_zero {a b m : Word} (ha : a &&& m = 0#32) (hb : b &&& m = 0#32) : (a ||| b) &&& m = 0#32 := by
  rw [BitVec.and_comm, BitVec.and_or_distrib_left, BitVec.and_comm m a, BitVec.and_comm m b, ha, hb]
  simp

/-- The evaluator computes queue bits only. -/
theorem State.queueBits_queue (s : State) : s.queueBits &&& ~~~Mask.queue = 0#32 := by
  unfold State.queueBits txBits rxBits dirBits
  refine and_or_zero (and_or_zero (and_or_zero ?_ ?_) ?_) (and_or_zero (and_or_zero ?_ ?_) ?_)
  all_goals first
    | exact fullEmptyBits_queue _ (by decide) (by decide)
    | exact bitIf_queue _ (by decide)

/-- The queue bits depend on the two buffers and the two sets of thresholds alone. -/
theorem State.queueBits_congr {s t : State} (h1 : t.rx.size = s.rx.size) (h2 : t.rx.inQueue = s.rx.inQueue)
    (h3 : t.tx.size = s.tx.size) (h4 : t.tx.inQueue = s.tx.inQueue) (h5 : t.wmRx = s.wmRx) (h6 : t.wmTx = s.wmTx) :
    t.queueBits = s.queueBits := by
  have key : ∀ (b c : RingBuffer) (wm : Watermarks) (f e l h : Word), c.size = b.size → c.inQueue = b.inQueue →
      dirBits c wm f e l h = dirBits b wm f e l h := by
    intro b c wm f e l h hs hq
    obtain ⟨_, sz, _, _, iq, _, _⟩ := b
    obtain ⟨_, sz', _, _, iq', _, _⟩ := c
    simp only at hs hq
    subst hs hq
    rfl
  unfold State.queueBits txBits rxBits
  rw [h5, h6, key _ _ _ _ _ _ _ h1 h2, key _ _ _ _ _ _ _ h3 h4]

@[simp] theorem State.changeState_queueBits (s : State) (n m : Word) : (s.changeState n m).queueBits = s.queueBits :=
  State.queueBits_congr (by simp) (by simp) (by simp) (by simp) (by simp) (by simp)

/-- R155 and R271 at odds, whatever meaning RELEASE has: a state `t` with the `State` and the registers that R155 gives after
RELEASE (the word 0, the buffers and thresholds those before it) agrees with its counters only if they gave no queue bit
(log entry 17). -/
theorem State.cleared_agrees_iff {s t : State} (line : t.line = 0#32) (rx : t.rx = s.rx) (tx : t.tx = s.tx)
    (wmRx : t.wmRx = s.wmRx) (wmTx : t.wmTx = s.wmTx) : t.queueBitsAgree ↔ s.queueBits = 0#32 := by
  have same : t.queueBits = s.queueBits :=
    State.queueBits_congr (by rw [rx]) (by rw [rx]) (by rw [tx]) (by rw [tx]) wmRx wmTx
  rw [State.queueBitsAgree, line, same, BitVec.zero_and]
  exact eq_comm

/-! ### Interests (R34, R45) -/

@[simp] theorem blockedInterest_nil : blockedInterest [] = 0#32 := rfl
@[simp] theorem blockedInterest_none (xs : List (Option Wait)) : blockedInterest (none :: xs) = blockedInterest xs := rfl
theorem blockedInterest_some (x : Wait) (xs : List (Option Wait)) :
    blockedInterest (some x :: xs) = (if x.awake then 0#32 else x.interest) ||| blockedInterest xs := rfl

/-- With every slot awake nothing is watched. -/
theorem blockedInterest_wake (xs : List (Option Wait)) : blockedInterest (xs.map (Option.map Wait.wake)) = 0#32 := by
  induction xs with
  | nil => rfl
  | cons o xs ih => cases o <;> simp [blockedInterest_some, Wait.wake, ih]

/-- With no slot busy nothing is watched. -/
theorem blockedInterest_free (n : Nat) : blockedInterest (List.replicate n none) = 0#32 := by
  induction n with
  | zero => rfl
  | succ n ih => simp [List.replicate_succ, ih]

/-- Putting a sleeping wait where nothing slept adds its interest. -/
theorem blockedInterest_set_sleeping {xs : List (Option Wait)} {w : Nat} {x : Wait} (hw : w < xs.length)
    (hx : x.awake = false) (hold : ∀ y, xs[w]? = some (some y) → y.awake = true) :
    blockedInterest (xs.set w (some x)) = blockedInterest xs ||| x.interest := by
  induction xs generalizing w with
  | nil => simp at hw
  | cons o xs ih =>
    cases w with
    | zero =>
      cases o with
      | none => simp [blockedInterest_some, hx, BitVec.or_comm]
      | some y =>
        have := hold y (by simp)
        simp [blockedInterest_some, hx, this, BitVec.or_comm]
    | succ w =>
      have hrec := ih (w := w) (by simpa using hw) (by simpa using hold)
      cases o <;> simp [blockedInterest_some, hrec, BitVec.or_assoc]

/-- Freeing a slot that nothing sleeps in changes nothing. -/
theorem blockedInterest_set_none {xs : List (Option Wait)} {w : Nat}
    (hold : ∀ y, xs[w]? = some (some y) → y.awake = true) :
    blockedInterest (xs.set w none) = blockedInterest xs := by
  induction xs generalizing w with
  | nil => rfl
  | cons o xs ih =>
    cases w with
    | zero =>
      cases o with
      | none => rfl
      | some y => simp [blockedInterest_some, hold y (by simp)]
    | succ w =>
      have hrec := ih (w := w) (by simpa using hold)
      cases o <;> simp [blockedInterest_some, hrec]

/-- A sleeping wait's interest is watched. -/
theorem interest_of_sleeping {xs : List (Option Wait)} {x : Wait} (h : some x ∈ xs) (hx : x.awake = false) :
    x.interest &&& ~~~blockedInterest xs = 0#32 := by
  induction xs with
  | nil => simp at h
  | cons o xs ih =>
    rcases List.mem_cons.mp h with h | h
    · subst h
      simp only [blockedInterest_some, hx, Bool.false_eq_true, if_false]
      ext i hi
      simp
      grind
    · have := ih h
      have key : ∀ a b c : Word, a &&& ~~~b = 0#32 → a &&& ~~~(c ||| b) = 0#32 := by
        intro a b c hab
        apply BitVec.eq_of_getLsbD_eq
        intro i hi
        have hbit := congrArg (fun v => BitVec.getLsbD v i) hab
        simp [hi] at hbit ⊢
        grind
      cases o with
      | none => exact this
      | some y => exact key _ _ _ this

/-! ### Slots -/

theorem State.slot_eq_some {s : State} {w : Nat} {x : Wait} (h : s.slot w = some x) : s.slots[w]? = some (some x) := by
  unfold State.slot at h
  cases hs : s.slots[w]? with
  | none => simp [hs] at h
  | some o =>
    cases o with
    | none => simp [hs] at h
    | some y => simp [hs] at h; rw [h]

theorem State.slot_eq_none {s : State} {w : Nat} (hw : w < s.slots.length) (h : s.slot w = none) :
    s.slots[w]? = some none := by
  unfold State.slot at h
  rw [List.getElem?_eq_getElem hw] at h ⊢
  simpa using h

theorem mem_of_slot {s : State} {w : Nat} {x : Wait} (h : s.slot w = some x) : some x ∈ s.slots :=
  List.mem_of_getElem? (State.slot_eq_some h)

/-- A woken list holds only waits that are awake, each of them one of the old ones woken. -/
theorem mem_map_wake {xs : List (Option Wait)} {x : Wait} (h : some x ∈ xs.map (Option.map Wait.wake)) :
    x.awake = true ∧ ∃ y, some y ∈ xs ∧ x = y.wake := by
  simp only [List.mem_map, Option.map_eq_some_iff] at h
  obtain ⟨o, ho, y, rfl, rfl⟩ := h
  exact ⟨rfl, y, ho, rfl⟩

/-- A wait in an updated list is the one put there or one of the old ones. -/
theorem mem_set_slot {xs : List (Option Wait)} {w : Nat} {o : Option Wait} {x : Wait} (h : some x ∈ xs.set w o) :
    some x = o ∨ some x ∈ xs := by
  rcases List.mem_or_eq_of_mem_set h with h | h
  · exact .inr h
  · exact .inl h

/-! ### Completions (R166, R170) -/

/-- Completing every slot of a list Offline touches the slots and the responses alone. -/
theorem State.completeOffline_eq (xs : List (Option Wait)) (s : State) (w : Nat) :
    s.completeOffline w xs =
      { s with
        slots := (s.completeOffline w xs).slots
        outH := (s.completeOffline w xs).outH
        outW := (s.completeOffline w xs).outW } := by
  induction xs generalizing s w with
  | nil => rfl
  | cons o xs ih =>
    cases o with
    | none => exact ih s (w + 1)
    | some x =>
      have := ih (s.complete w x .offline 0#32) (w + 1)
      simp only [State.completeOffline]
      rw [this]
      simp

end Sys2Proof.Machine
end

