-- ==== Sys2Proof/Laws/Exec.lean ====
section
/-! SUPPORT. What carrying out a command can do, said once for all meanings, and what a step can do, said once for all
turns. -/

namespace Sys2Proof.Machine

/-! ### Decoding a frame given by its fields -/

theorem dirOfSel_selOfDir (d : Dir) : dirOfSel (selOfDir d) = some d := by cases d <;> rfl

theorem blockingOfSel_selOfBlocking (b : Bool) : blockingOfSel (selOfBlocking b) = some b := by cases b <;> rfl

/-- Decoding a frame made of its fields. -/
theorem decode_mkFrame (o l : Byte) (tag : Tag) (a b : Word) (bytes : List Byte) :
    decode (mkFrame o l tag a b) bytes =
      match decodeFields o l tag a b bytes with
      | .error e => .error e
      | .ok i =>
        if bytes.length = (if o = 0x03#8 ∨ o = 0x20#8 ∨ o = 0x22#8 then a.toNat else 0) then .ok i
        else .error .payloadLength := by
  unfold decode payloadLength
  rw [opcOf_mkFrame, selOf_mkFrame, tagOf_mkFrame, rsvOf_mkFrame, operandA_mkFrame, operandB_mkFrame]
  rfl

/-! ### Answers and small updates -/

theorem State.lastAnswer_respond (s : State) (r : Response) : (s.respond r).lastAnswer = some r := by
  unfold State.lastAnswer
  rw [State.respond_issuer, State.respond_out_self]
  simp

/-- A change of no bit changes nothing. -/
theorem State.changeState_none (s : State) (n : Word) : s.changeState n 0#32 = s := by
  have h : mergeBits s.line n 0#32 = s.line := by
    apply BitVec.eq_of_getLsbD_eq
    intro i _
    rw [mergeBits_bit]
    simp
  rw [State.changeState_eq]
  simp [h, State.wakes]

theorem State.completeOffline_issuer (xs : List (Option Wait)) (s : State) (w : Nat) :
    (s.completeOffline w xs).issuer = s.issuer := by rw [State.completeOffline_eq]

theorem State.acquisition_issuer (s : State) : s.acquisition.issuer = s.issuer := by simp [State.acquisition]

theorem State.fold_issuer (s : State) : s.fold.issuer = s.issuer := by simp [State.fold]

/-! ### Events -/

/-- What an event does: its answer, after an application where it is accepted (R190). -/
theorem State.configEvent_shape (s u : State) (tag : Tag) (v : Prop) [Decidable v] (hu : u.issuer = s.issuer) :
    ∃ w r, s.configEvent tag v u = w.respond r ∧ w.issuer = s.issuer ∧ r.opc = Opc.exec ∧ r.tag = tag ∧
      (r.status ≠ .ok → w = s) := by
  unfold State.configEvent
  split
  · exact ⟨s, _, rfl, rfl, rfl, rfl, fun _ => rfl⟩
  · split
    · exact ⟨s, _, rfl, rfl, rfl, rfl, fun _ => rfl⟩
    · exact ⟨_, _, rfl, hu, rfl, rfl, fun h => absurd rfl h⟩

/-- The change of `State` that an event asks for: none, `ACTIVE` (EV_ACTIVE alone) or `BRK` (EV_LINE_BREAK alone). -/
def eventChange (i : Instr) (n m : Word) : Prop :=
  m = 0#32 ∨
  (m = Bit.active ∧ (n = 0#32 ∨ n = Bit.active) ∧ ∃ tag a, i = .execEvActive tag a ∧ (n = Bit.active ↔ a ≠ 0#32)) ∨
  (m = Bit.brk ∧ ∃ tag a, i = .execEvLineBreak tag a)

theorem exec_event_bank {i : Instr} {s : State} {v : Prop} [inst : Decidable v] {k : LinkBank}
    (h : exec i s = .next (s.configEvent i.tag v (s.setBank k))) :
    ∃ (v : Prop) (_ : Decidable v) (k : LinkBank) (n m : Word),
      exec i s = .next (s.configEvent i.tag v ((s.setBank k).changeState n m)) ∧ eventChange i n m :=
  ⟨v, inst, k, 0#32, 0#32, by rw [State.changeState_none]; exact h, .inl rfl⟩

/-- Every event applies a new bank and one change of `State` (R190 to R211). -/
theorem exec_event {i : Instr} (s : State) (ho : i.opc = 0x30#8) :
    ∃ (v : Prop) (_ : Decidable v) (k : LinkBank) (n m : Word),
      exec i s = .next (s.configEvent i.tag v ((s.setBank k).changeState n m)) ∧ eventChange i n m := by
  cases i
  case execEvActive tag a =>
    simp only [exec, runExecEvActive]
    by_cases ha : a = 0#32
    · subst ha
      exact ⟨True, instDecidableTrue, s.bank, 0#32, Bit.active, rfl, .inr (.inl ⟨rfl, .inl rfl, _, _, rfl, by decide⟩)⟩
    · have hf : flagOf a = true := by simp [flagOf, ha]
      by_cases hb : hasBit s.line Bit.active
      · refine ⟨True, instDecidableTrue, s.bank, 0#32, 0#32, ?_, .inl rfl⟩
        rw [State.changeState_none]
        simp only [State.setActive, hf, if_true]
        rw [if_pos hb]
        rfl
      · refine ⟨True, instDecidableTrue, LinkBank.defaults, Bit.active, Bit.active, ?_,
          .inr (.inl ⟨rfl, .inr rfl, _, _, rfl, by simp [ha]⟩)⟩
        simp only [State.setActive, hf, if_true]
        rw [if_neg hb]
        rfl
  case execEvLineBreak tag a =>
    exact ⟨True, instDecidableTrue, s.bank, _, Bit.brk, rfl, .inr (.inr ⟨rfl, _, _, rfl⟩)⟩
  all_goals first
    | exact exec_event_bank rfl
    | exact exec_event_bank (k := s.bank) rfl
    | exact absurd (beq_iff_eq.mpr ho) Bool.false_ne_true

/-! ### Commands and steps -/

/-- What carrying out a command can do to its own answer: answer it, in the old state if the status is an error; park it
in the slot of its TAG; or start its transfer. -/
theorem exec_shape {i : Instr} {s t : State} (h : exec i s = .next t) :
    (∃ u r, t = u.respond r ∧ u.issuer = s.issuer ∧ r.opc = i.opc ∧ r.tag = i.tag ∧ (r.status ≠ .ok → u = s)) ∨
    (∃ x, x.kind.opc = i.opc ∧ x.port = s.issuer ∧ x.awake = false ∧ s.canPark i.tag ∧ t = s.park i.tag x) ∨
    ∃ job, job.tag = i.tag ∧ job.op.opc = i.opc ∧ t = s.setXfer s.issuer (.copy job) := by
  by_cases hx : i.opc = 0x30#8
  · obtain ⟨v, _, k, n, m, e, -⟩ := exec_event s hx
    rw [e] at h
    simp only [Host.Outcome.next.injEq] at h
    subst h
    obtain ⟨w, r, h1, h2, h3, h4, h5⟩ := State.configEvent_shape s ((s.setBank k).changeState n m) i.tag v (by simp)
    exact .inl ⟨w, r, h1, h2, h3.trans hx.symm, h4, h5⟩
  cases i
  all_goals first
    | exact absurd rfl hx
    | simp only [exec, State.readBack,
      runRbInit, runRbPush, runRbPop, runRbPushbulk, runRbPopbulk, runRbFree, runRbUsed, runRbCap, runRbStatus,
      runRbBegindr, runRbEnddr, runRbClose, runAcquire, runRelease, runLreset, runSetstate, runGetstate,
      runWatchstate, runCancelwait, runTerminate, runSnapshot, runEnqRx, runDeqRx, runEnqTx, runReqEvActive,
      runReqEvDataRate, runReqEvDataSize, runReqEvStopBits, runReqEvTxParity, runReqEvRxParity, runReqEvXonByte,
      runReqEvXoffByte, runReqEvSpecialByte, runReqEvValidDataByte, runReqEvMinLatency, runReqEvDataLatency,
      runReqEvCharLatency, runReqEvFlowControl, runReqEvLineBreak, runReqEvRxqSize, runReqEvTxqSize,
      runReqEvRxqHighWater, runReqEvRxqLowWater, runReqEvTxqHighWater, runReqEvTxqLowWater] at h
  all_goals (try split at h)
  all_goals (try split at h)
  all_goals (try split at h)
  all_goals (try split at h)
  all_goals first
    | simp only [reduceCtorEq] at h
    | (simp only [Host.Outcome.next.injEq] at h
       subst h
       first
        | exact .inl ⟨s, _, rfl, rfl, rfl, rfl, fun _ => rfl⟩
        | exact .inr (.inr ⟨_, rfl, rfl, rfl⟩)
        | (refine .inl ⟨_, _, rfl, ?_, rfl, rfl, fun h => absurd rfl h⟩
           first
            | exact State.completeOffline_issuer _ _ _
            | simp [State.wakeAll, State.notify, State.acquisition, State.fold])
        | (rename_i hp
           exact .inr (.inl ⟨_, rfl, rfl, rfl, not_not.mp hp, rfl⟩)))

/-- What a step can do: one turn, the next of the schedule or with nothing scheduled a free one; or nothing. -/
theorem step_cases {s t : State} (h : step s = .next t) :
    (∃ turn rest, s.schedule = turn :: rest ∧ takeTurn turn { s with schedule := rest } = .next t) ∨
    (∃ turn, s.schedule = [] ∧ s.freeTurn = some turn ∧ takeTurn turn s = .next t) ∨
    (s.schedule = [] ∧ s.freeTurn = none ∧ t = s) := by
  unfold step at h
  split at h
  · next turn rest hs => exact .inl ⟨turn, rest, hs, h⟩
  · next hs =>
    split at h
    · next turn hf => exact .inr (.inl ⟨turn, hs, hf, h⟩)
    · next hf =>
      simp only [Host.Outcome.next.injEq] at h
      exact .inr (.inr ⟨hs, hf, h.symm⟩)

end Sys2Proof.Machine
end

