-- ==== Sys2Proof/Laws/PerInstr.lean ====
section
/-! SUPPORT. Facts about every instruction as syntax, one lemma per constructor: its encoding carries its OPC and its TAG
and is no malformed frame (30_encoding.md R96, R98). -/

namespace Sys2Proof.Laws.EncodesFields

open Sys2Proof.Machine

/-- The frame of an instruction has the instruction's OPC and TAG, and is not malformed in the words of R98. -/
def Statement (i : Instr) : Prop :=
  opcOf (encode i).frame = i.opc ∧ tagOf (encode i).frame = i.tag ∧ ¬ malformed (encode i).frame

/-- A pair of OPC and SEL that R98 accepts. -/
abbrev fits (opc sel : Byte) : Prop :=
  isOpcode opc ∧ ¬ ((opc ≤ 0x0B#8 ∨ opc = 0x10#8) ∧ 0x02#8 ≤ sel) ∧
  ¬ (((0x11#8 ≤ opc ∧ opc ≤ 0x18#8) ∨ (0x20#8 ≤ opc ∧ opc ≤ 0x22#8)) ∧ sel ≠ 0x00#8)

/-- What has to be checked of an instruction: its own OPC and SEL. -/
theorem of_fits (i : Instr) (h : decide (fits i.opc i.sel) = true) : Statement i := by
  obtain ⟨h1, h2, h3, h4, -, -⟩ := encode_fields i
  obtain ⟨ho, hb, hp⟩ := of_decide_eq_true h
  refine ⟨h1, h3, ?_⟩
  unfold malformed
  rw [h1, h2, h4]
  exact fun g => g.elim (fun g => g ho) fun g => g.elim (fun g => g rfl) fun g => g.elim hb hp

theorem rbInit (d : Dir) (tag : Tag) (a : Word) : Statement (.rbInit d tag a) := by
  cases d <;> exact of_fits _ rfl

theorem rbPush (d : Dir) (tag : Tag) (a : Word) : Statement (.rbPush d tag a) := by
  cases d <;> exact of_fits _ rfl

theorem rbPop (d : Dir) (tag : Tag) : Statement (.rbPop d tag) := by
  cases d <;> exact of_fits _ rfl

theorem rbPushbulk (d : Dir) (tag : Tag) (bytes : List Byte) : Statement (.rbPushbulk d tag bytes) := by
  cases d <;> exact of_fits _ rfl

theorem rbPopbulk (d : Dir) (tag : Tag) (a : Word) : Statement (.rbPopbulk d tag a) := by
  cases d <;> exact of_fits _ rfl

theorem rbFree (d : Dir) (tag : Tag) : Statement (.rbFree d tag) := by
  cases d <;> exact of_fits _ rfl

theorem rbUsed (d : Dir) (tag : Tag) : Statement (.rbUsed d tag) := by
  cases d <;> exact of_fits _ rfl

theorem rbCap (d : Dir) (tag : Tag) : Statement (.rbCap d tag) := by
  cases d <;> exact of_fits _ rfl

theorem rbStatus (d : Dir) (tag : Tag) : Statement (.rbStatus d tag) := by
  cases d <;> exact of_fits _ rfl

theorem rbBegindr (d : Dir) (tag : Tag) (a : Word) : Statement (.rbBegindr d tag a) := by
  cases d <;> exact of_fits _ rfl

theorem rbEnddr (d : Dir) (tag : Tag) (a : Word) : Statement (.rbEnddr d tag a) := by
  cases d <;> exact of_fits _ rfl

theorem rbClose (d : Dir) (tag : Tag) : Statement (.rbClose d tag) := by
  cases d <;> exact of_fits _ rfl

theorem acquire (blocking : Bool) (tag : Tag) : Statement (.acquire blocking tag) := by
  cases blocking <;> exact of_fits _ rfl

theorem release (tag : Tag) : Statement (.release tag) := by
  exact of_fits _ rfl

theorem lreset (tag : Tag) : Statement (.lreset tag) := by
  exact of_fits _ rfl

theorem setstate (tag : Tag) (a : Word) (b : Word) : Statement (.setstate tag a b) := by
  exact of_fits _ rfl

theorem getstate (tag : Tag) : Statement (.getstate tag) := by
  exact of_fits _ rfl

theorem watchstate (tag : Tag) (a : Word) (b : Word) : Statement (.watchstate tag a b) := by
  exact of_fits _ rfl

theorem cancelwait (tag : Tag) : Statement (.cancelwait tag) := by
  exact of_fits _ rfl

theorem terminate (tag : Tag) : Statement (.terminate tag) := by
  exact of_fits _ rfl

theorem snapshot (tag : Tag) : Statement (.snapshot tag) := by
  exact of_fits _ rfl

theorem enqRx (tag : Tag) (bytes : List Byte) : Statement (.enqRx tag bytes) := by
  exact of_fits _ rfl

theorem deqRx (tag : Tag) (a : Word) (b : Word) : Statement (.deqRx tag a b) := by
  exact of_fits _ rfl

theorem enqTx (tag : Tag) (bytes : List Byte) : Statement (.enqTx tag bytes) := by
  exact of_fits _ rfl

theorem execEvActive (tag : Tag) (a : Word) : Statement (.execEvActive tag a) := by
  exact of_fits _ rfl

theorem execEvDataRate (tag : Tag) (a : Word) : Statement (.execEvDataRate tag a) := by
  exact of_fits _ rfl

theorem execEvDataSize (tag : Tag) (a : Word) : Statement (.execEvDataSize tag a) := by
  exact of_fits _ rfl

theorem execEvStopBits (tag : Tag) (a : Word) : Statement (.execEvStopBits tag a) := by
  exact of_fits _ rfl

theorem execEvTxParity (tag : Tag) (a : Word) : Statement (.execEvTxParity tag a) := by
  exact of_fits _ rfl

theorem execEvRxParity (tag : Tag) (a : Word) : Statement (.execEvRxParity tag a) := by
  exact of_fits _ rfl

theorem execEvXonByte (tag : Tag) (a : Word) : Statement (.execEvXonByte tag a) := by
  exact of_fits _ rfl

theorem execEvXoffByte (tag : Tag) (a : Word) : Statement (.execEvXoffByte tag a) := by
  exact of_fits _ rfl

theorem execEvSpecialByte (tag : Tag) (a : Word) : Statement (.execEvSpecialByte tag a) := by
  exact of_fits _ rfl

theorem execEvValidDataByte (tag : Tag) (a : Word) : Statement (.execEvValidDataByte tag a) := by
  exact of_fits _ rfl

theorem execEvMinLatency (tag : Tag) (a : Word) : Statement (.execEvMinLatency tag a) := by
  exact of_fits _ rfl

theorem execEvDataLatency (tag : Tag) (a : Word) : Statement (.execEvDataLatency tag a) := by
  exact of_fits _ rfl

theorem execEvCharLatency (tag : Tag) (a : Word) : Statement (.execEvCharLatency tag a) := by
  exact of_fits _ rfl

theorem execEvFlowControl (tag : Tag) (a : Word) : Statement (.execEvFlowControl tag a) := by
  exact of_fits _ rfl

theorem execEvLineBreak (tag : Tag) (a : Word) : Statement (.execEvLineBreak tag a) := by
  exact of_fits _ rfl

theorem execEvRxqSize (tag : Tag) (a : Word) : Statement (.execEvRxqSize tag a) := by
  exact of_fits _ rfl

theorem execEvTxqSize (tag : Tag) (a : Word) : Statement (.execEvTxqSize tag a) := by
  exact of_fits _ rfl

theorem execEvRxqHighWater (tag : Tag) (a : Word) : Statement (.execEvRxqHighWater tag a) := by
  exact of_fits _ rfl

theorem execEvRxqLowWater (tag : Tag) (a : Word) : Statement (.execEvRxqLowWater tag a) := by
  exact of_fits _ rfl

theorem execEvTxqHighWater (tag : Tag) (a : Word) : Statement (.execEvTxqHighWater tag a) := by
  exact of_fits _ rfl

theorem execEvTxqLowWater (tag : Tag) (a : Word) : Statement (.execEvTxqLowWater tag a) := by
  exact of_fits _ rfl

theorem reqEvActive (tag : Tag) : Statement (.reqEvActive tag) := by
  exact of_fits _ rfl

theorem reqEvDataRate (tag : Tag) : Statement (.reqEvDataRate tag) := by
  exact of_fits _ rfl

theorem reqEvDataSize (tag : Tag) : Statement (.reqEvDataSize tag) := by
  exact of_fits _ rfl

theorem reqEvStopBits (tag : Tag) : Statement (.reqEvStopBits tag) := by
  exact of_fits _ rfl

theorem reqEvTxParity (tag : Tag) : Statement (.reqEvTxParity tag) := by
  exact of_fits _ rfl

theorem reqEvRxParity (tag : Tag) : Statement (.reqEvRxParity tag) := by
  exact of_fits _ rfl

theorem reqEvXonByte (tag : Tag) : Statement (.reqEvXonByte tag) := by
  exact of_fits _ rfl

theorem reqEvXoffByte (tag : Tag) : Statement (.reqEvXoffByte tag) := by
  exact of_fits _ rfl

theorem reqEvSpecialByte (tag : Tag) : Statement (.reqEvSpecialByte tag) := by
  exact of_fits _ rfl

theorem reqEvValidDataByte (tag : Tag) : Statement (.reqEvValidDataByte tag) := by
  exact of_fits _ rfl

theorem reqEvMinLatency (tag : Tag) : Statement (.reqEvMinLatency tag) := by
  exact of_fits _ rfl

theorem reqEvDataLatency (tag : Tag) : Statement (.reqEvDataLatency tag) := by
  exact of_fits _ rfl

theorem reqEvCharLatency (tag : Tag) : Statement (.reqEvCharLatency tag) := by
  exact of_fits _ rfl

theorem reqEvFlowControl (tag : Tag) : Statement (.reqEvFlowControl tag) := by
  exact of_fits _ rfl

theorem reqEvLineBreak (tag : Tag) : Statement (.reqEvLineBreak tag) := by
  exact of_fits _ rfl

theorem reqEvRxqSize (tag : Tag) : Statement (.reqEvRxqSize tag) := by
  exact of_fits _ rfl

theorem reqEvTxqSize (tag : Tag) : Statement (.reqEvTxqSize tag) := by
  exact of_fits _ rfl

theorem reqEvRxqHighWater (tag : Tag) : Statement (.reqEvRxqHighWater tag) := by
  exact of_fits _ rfl

theorem reqEvRxqLowWater (tag : Tag) : Statement (.reqEvRxqLowWater tag) := by
  exact of_fits _ rfl

theorem reqEvTxqHighWater (tag : Tag) : Statement (.reqEvTxqHighWater tag) := by
  exact of_fits _ rfl

theorem reqEvTxqLowWater (tag : Tag) : Statement (.reqEvTxqLowWater tag) := by
  exact of_fits _ rfl

end Sys2Proof.Laws.EncodesFields
end

