-- ==== Sys2Proof/Tests/Slice0.lean ====
section
/-! SUPPORT. Small tests of the model, each with its expected result taken from the spec's own examples, and for every
obligation with hypotheses a witness: a concrete state and operands that meet them. -/

namespace Sys2Proof.Tests

open Sys2Proof.Machine

/-! ### Well-formedness: each check refuses an ill-formed term -/

/-- A payload one byte longer than the operand `A` can announce (R92). -/
theorem too_long : ¬ payloadFits (List.replicate (2 ^ 32) 0x00#8) := by
  rw [payloadFits, List.length_replicate]
  exact Nat.lt_irrefl _

theorem test_wellFormed_refuses_pushbulk :
    ¬ (Instr.rbPushbulk .rx 0#8 (List.replicate (2 ^ 32) 0x00#8)).wellFormed := too_long
theorem test_wellFormed_refuses_enqRx : ¬ (Instr.enqRx 0#8 (List.replicate (2 ^ 32) 0x00#8)).wellFormed := too_long
theorem test_wellFormed_refuses_enqTx : ¬ (Instr.enqTx 0#8 (List.replicate (2 ^ 32) 0x00#8)).wellFormed := too_long

/-- Parameters as 00_scope.md R5 admits them. -/
def small : Params := { depthRx := 8, depthTx := 8, nwatch := 2, minBaud := 50, maxBaud := 115200 }

theorem test_params_legal : small.legal := by decide
theorem test_params_refuse_depthRx : ¬ ({ small with depthRx := 0 } : Params).legal ∧
    ¬ ({ small with depthRx := 2 ^ 31 } : Params).legal := by decide
theorem test_params_refuse_depthTx : ¬ ({ small with depthTx := 0 } : Params).legal ∧
    ¬ ({ small with depthTx := 2 ^ 31 } : Params).legal := by decide
theorem test_params_refuse_nwatch : ¬ ({ small with nwatch := 1 } : Params).legal ∧
    ¬ ({ small with nwatch := 257 } : Params).legal := by decide
theorem test_params_refuse_baud : ¬ ({ small with minBaud := 9601 } : Params).legal ∧
    ¬ ({ small with maxBaud := 19199 } : Params).legal ∧ ¬ ({ small with maxBaud := 2 ^ 32 } : Params).legal := by decide

/-! ### Decoding: a word of each constructor, as the examples of the rules write it (R101: B, A, then RSV TAG SEL OPC) -/

theorem test_decode_ring_moves :
    decode 0x00000000_00000008_00000000#96 [] = .ok (.rbInit .rx 0#8 8#32) ∧
    decode 0x00000000_00000041_00000101#96 [] = .ok (.rbPush .tx 0#8 0x41#32) ∧
    decode 0x00000000_00000000_00000102#96 [] = .ok (.rbPop .tx 0#8) ∧
    decode 0x00000000_00000003_00000003#96 [1#8, 2#8, 3#8] = .ok (.rbPushbulk .rx 0#8 [1#8, 2#8, 3#8]) ∧
    decode 0x00000000_00000064_00000004#96 [] = .ok (.rbPopbulk .rx 0#8 100#32) ∧
    decode 0x00000000_00000000_0000010B#96 [] = .ok (.rbClose .tx 0#8) := by decide

theorem test_decode_ring_reads :
    decode 0x00000000_00000000_00000005#96 [] = .ok (.rbFree .rx 0#8) ∧
    decode 0x00000000_00000000_00000006#96 [] = .ok (.rbUsed .rx 0#8) ∧
    decode 0x00000000_00000000_00000107#96 [] = .ok (.rbCap .tx 0#8) ∧
    decode 0x00000000_00000000_00000008#96 [] = .ok (.rbStatus .rx 0#8) ∧
    decode 0x00000000_00000006_00000009#96 [] = .ok (.rbBegindr .rx 0#8 6#32) ∧
    decode 0x00000000_00000003_0000000A#96 [] = .ok (.rbEnddr .rx 0#8 3#32) := by decide

/-- The TAG is bits 23 to 16, the blocking flag of ACQUIRE is bit 8. -/
theorem test_decode_line :
    decode 0x00000000_00000000_00000010#96 [] = .ok (.acquire false 0#8) ∧
    decode 0x00000000_00000000_00030110#96 [] = .ok (.acquire true 3#8) ∧
    decode 0x00000000_00000000_00000011#96 [] = .ok (.release 0#8) ∧
    decode 0x00000000_00000000_00000012#96 [] = .ok (.lreset 0#8) ∧
    decode 0x00000004_00000004_00000013#96 [] = .ok (.setstate 0#8 4#32 4#32) ∧
    decode 0x00000000_00000000_00000014#96 [] = .ok (.getstate 0#8) ∧
    decode 0x00040000_00000000_00000015#96 [] = .ok (.watchstate 0#8 0#32 0x40000#32) ∧
    decode 0x00000000_00000000_00010016#96 [] = .ok (.cancelwait 1#8) ∧
    decode 0x00000000_00000000_00000017#96 [] = .ok (.terminate 0#8) ∧
    decode 0x00000000_00000000_00000018#96 [] = .ok (.snapshot 0#8) := by decide

theorem test_decode_transfers :
    decode 0x00000000_00000002_00000020#96 [0xAA#8, 0xBB#8] = .ok (.enqRx 0#8 [0xAA#8, 0xBB#8]) ∧
    decode 0x00000007_00000040_00000021#96 [] = .ok (.deqRx 0#8 64#32 7#32) ∧
    decode 0x00000000_00000005_00000022#96 [0x48#8, 0x45#8, 0x4C#8, 0x4C#8, 0x4F#8] =
      .ok (.enqTx 0#8 [0x48#8, 0x45#8, 0x4C#8, 0x4C#8, 0x4F#8]) := by decide

theorem test_decode_exec_framing :
    decode 0x00000000_00000001_00000030#96 [] = .ok (.execEvActive 0#8 1#32) ∧
    decode 0x00000000_00004B00_00000130#96 [] = .ok (.execEvDataRate 0#8 19200#32) ∧
    decode 0x00000000_00000007_00000230#96 [] = .ok (.execEvDataSize 0#8 7#32) ∧
    decode 0x00000000_00000004_00000330#96 [] = .ok (.execEvStopBits 0#8 4#32) ∧
    decode 0x00000000_00000003_00000430#96 [] = .ok (.execEvTxParity 0#8 3#32) ∧
    decode 0x00000000_00000006_00000530#96 [] = .ok (.execEvRxParity 0#8 6#32) ∧
    decode 0x00000000_00000011_00000630#96 [] = .ok (.execEvXonByte 0#8 0x11#32) ∧
    decode 0x00000000_00000013_00000730#96 [] = .ok (.execEvXoffByte 0#8 0x13#32) ∧
    decode 0x00000000_0000000D_00000830#96 [] = .ok (.execEvSpecialByte 0#8 0x0D#32) ∧
    decode 0x00000000_0000000D_00000930#96 [] = .ok (.execEvValidDataByte 0#8 0x0D#32) := by decide

theorem test_decode_exec_rest :
    decode 0x00000000_00000001_00000A30#96 [] = .ok (.execEvMinLatency 0#8 1#32) ∧
    decode 0x00000000_000003E8_00000B30#96 [] = .ok (.execEvDataLatency 0#8 1000#32) ∧
    decode 0x00000000_00000032_00000C30#96 [] = .ok (.execEvCharLatency 0#8 50#32) ∧
    decode 0x00000000_00000004_00000D30#96 [] = .ok (.execEvFlowControl 0#8 4#32) ∧
    decode 0x00000000_00000001_00000E30#96 [] = .ok (.execEvLineBreak 0#8 1#32) ∧
    decode 0x00000000_00001000_00001030#96 [] = .ok (.execEvRxqSize 0#8 4096#32) ∧
    decode 0x00000000_00001000_00001130#96 [] = .ok (.execEvTxqSize 0#8 4096#32) ∧
    decode 0x00000000_00000030_00001230#96 [] = .ok (.execEvRxqHighWater 0#8 48#32) ∧
    decode 0x00000000_00000010_00001330#96 [] = .ok (.execEvRxqLowWater 0#8 16#32) ∧
    decode 0x00000000_00000030_00001430#96 [] = .ok (.execEvTxqHighWater 0#8 48#32) ∧
    decode 0x00000000_00000010_00001530#96 [] = .ok (.execEvTxqLowWater 0#8 16#32) := by decide

theorem test_decode_req_framing :
    decode 0x00000000_00000000_00000031#96 [] = .ok (.reqEvActive 0#8) ∧
    decode 0x00000000_00000000_00000131#96 [] = .ok (.reqEvDataRate 0#8) ∧
    decode 0x00000000_00000000_00000231#96 [] = .ok (.reqEvDataSize 0#8) ∧
    decode 0x00000000_00000000_00000331#96 [] = .ok (.reqEvStopBits 0#8) ∧
    decode 0x00000000_00000000_00000431#96 [] = .ok (.reqEvTxParity 0#8) ∧
    decode 0x00000000_00000000_00000531#96 [] = .ok (.reqEvRxParity 0#8) ∧
    decode 0x00000000_00000000_00000631#96 [] = .ok (.reqEvXonByte 0#8) ∧
    decode 0x00000000_00000000_00000731#96 [] = .ok (.reqEvXoffByte 0#8) ∧
    decode 0x00000000_00000000_00000831#96 [] = .ok (.reqEvSpecialByte 0#8) ∧
    decode 0x00000000_00000000_00000931#96 [] = .ok (.reqEvValidDataByte 0#8) := by decide

theorem test_decode_req_rest :
    decode 0x00000000_00000000_00000A31#96 [] = .ok (.reqEvMinLatency 0#8) ∧
    decode 0x00000000_00000000_00000B31#96 [] = .ok (.reqEvDataLatency 0#8) ∧
    decode 0x00000000_00000000_00000C31#96 [] = .ok (.reqEvCharLatency 0#8) ∧
    decode 0x00000000_00000000_00000D31#96 [] = .ok (.reqEvFlowControl 0#8) ∧
    decode 0x00000000_00000000_00000E31#96 [] = .ok (.reqEvLineBreak 0#8) ∧
    decode 0x00000000_00000000_00001031#96 [] = .ok (.reqEvRxqSize 0#8) ∧
    decode 0x00000000_00000000_00001131#96 [] = .ok (.reqEvTxqSize 0#8) ∧
    decode 0x00000000_00000000_00001231#96 [] = .ok (.reqEvRxqHighWater 0#8) ∧
    decode 0x00000000_00000000_00001331#96 [] = .ok (.reqEvRxqLowWater 0#8) ∧
    decode 0x00000000_00000000_00001431#96 [] = .ok (.reqEvTxqHighWater 0#8) ∧
    decode 0x00000000_00000000_00001531#96 [] = .ok (.reqEvTxqLowWater 0#8) := by decide

/-- Malformed frames (R98) and kinds that do not exist (R97), each refused by name. -/
theorem test_decode_refuses :
    decode 0x0000000C#96 [] = .error .unknownOpcode ∧ decode 0x00000032#96 [] = .error .unknownOpcode ∧
    decode 0x01000014#96 [] = .error .reservedField ∧ decode 0x00000205#96 [] = .error .badSelector ∧
    decode 0x00000210#96 [] = .error .badSelector ∧ decode 0x00000114#96 [] = .error .badSelector ∧
    decode 0x00000F30#96 [] = .error .unknownKind ∧ decode 0x00001631#96 [] = .error .unknownKind ∧
    decode 0x00000000_00000002_00000020#96 [0x00#8] = .error .payloadLength := by decide

/-- The encoder writes the frames of the examples. -/
theorem test_encode :
    (encode (.setstate 0#8 4#32 4#32)).frame = 0x00000004_00000004_00000013#96 ∧
    (encode (.rbPush .tx 0#8 0x41#32)).frame = 0x00000000_00000041_00000101#96 ∧
    (encode (.execEvDataRate 0#8 19200#32)).frame = 0x00000000_00004B00_00000130#96 ∧
    encode (.enqRx 2#8 [0xAA#8]) = { frame := 0x00000000_00000001_00020020#96, payload := [0xAA#8] } := by decide

/-- A word of the opcode table, all bits above it zero. -/
theorem test_table_word : decodeTableWord 32 0x00000110 = some (.acquire true 0#8) ∧
    decodeTableWord 32 0x00000E31 = some (.reqEvLineBreak 0#8) := by decide

/-! ### Small states -/

/-- A closed, released line with eight bytes of storage each way. -/
def fresh : State := State.resetWith small

/-- An open ring buffer of eight bytes. -/
def ring (last used exposed : Nat) (m : Memory) : RingBuffer :=
  { mem := m, size := 8, lastChar := last, nextChar := (last + used) % 8, inQueue := used, valid := true,
    exposed := exposed }

/-- A line with both buffers open and empty, the thresholds of R28 for eight bytes, and a given state word. -/
def lineWith (w : Word) : State :=
  { fresh with
    line := w, rx := ring 0 0 0 [], tx := ring 0 0 0 []
    wmRx := { bufferSize := 8, highWater := 5, lowWater := 2 }
    wmTx := { bufferSize := 8, highWater := 5, lowWater := 2 } }

/-- Acquired and not active, as R152's example leaves the line. -/
def acquired : State := lineWith 0xA6260000#32

/-- Acquired and active, as R191's example leaves the line. -/
def active : State := lineWith 0xE6260000#32

/-- The state a meaning answers, if it does not stop. -/
def nextOf (o : Host.Outcome State Fault Refusal) : Option State :=
  match o with
  | .next t => some t
  | _ => none

/-- One field of the state a meaning answers. -/
def seen {α : Type} (f : State → α) (i : Instr) (s : State) : Option α := (nextOf (exec i s)).map f

/-- The answer alone. -/
def answer (i : Instr) (s : State) : Option Response := (seen State.lastAnswer i s).join

/-! ### Ring buffers (examples of R121 to R132) -/

theorem test_rbInit : seen State.rx (.rbInit .rx 0#8 8#32) fresh = some (ring 0 0 0 []) ∧
    answer (.rbInit .rx 0#8 9#32) fresh = some { status := .badArgument, opc := 0x00#8, tag := 0#8 } := by decide
theorem test_rbPush : seen State.tx (.rbPush .tx 0#8 0x41#32) acquired = some (ring 0 1 0 [(0, 0x41#8)]) := by decide
theorem test_rbPush_closed :
    answer (.rbPush .tx 9#8 0x41#32) fresh = some { status := .queueFull, opc := 0x01#8, tag := 9#8 } := by decide
theorem test_rbPop : seen (fun t => (t.tx, t.lastAnswer)) (.rbPop .tx 0#8) { acquired with tx := ring 0 1 0 [(0, 0x41#8)] } =
    some (ring 1 0 0 [(0, 0x41#8)], some { status := .ok, opc := 0x02#8, tag := 0#8, d0 := 0x41#32 }) := by decide
theorem test_rbPushbulk : seen (fun t => (t.rx, t.lastAnswer)) (.rbPushbulk .rx 0#8 [1#8, 2#8, 3#8])
    { acquired with rx := ring 0 6 0 [] } =
    some (ring 0 8 0 [(6, 1#8), (7, 2#8)], some { status := .ok, opc := 0x03#8, tag := 0#8, d0 := 2#32 }) := by decide
theorem test_rbPopbulk : seen (fun t => (t.rx.lastChar, t.rx.inQueue, t.lastAnswer)) (.rbPopbulk .rx 0#8 100#32)
    { acquired with rx := ring 6 4 0 [(0, 0x0C#8), (1, 0x0D#8), (6, 0x0A#8), (7, 0x0B#8)] } =
    some (2, 0, some { status := .ok, opc := 0x04#8, tag := 0#8, d0 := 4#32,
                       bytes := [0x0A#8, 0x0B#8, 0x0C#8, 0x0D#8] }) := by decide
theorem test_rbFree : answer (.rbFree .rx 0#8) { fresh with rx := { ring 0 0 0 [] with size := 64, inQueue := 40 } } =
    some { status := .ok, opc := 0x05#8, tag := 0#8, d0 := 24#32 } := by decide
theorem test_rbUsed : answer (.rbUsed .rx 0#8) { fresh with rx := { ring 0 0 0 [] with size := 64, inQueue := 40 } } =
    some { status := .ok, opc := 0x06#8, tag := 0#8, d0 := 40#32 } := by decide
theorem test_rbCap : answer (.rbCap .tx 0#8) { fresh with tx := { ring 0 0 0 [] with size := 64 } } =
    some { status := .ok, opc := 0x07#8, tag := 0#8, d0 := 64#32 } := by decide
theorem test_rbStatus : answer (.rbStatus .rx 0#8) { fresh with rx := ring 0 8 0 [] } =
      some { status := .ok, opc := 0x08#8, tag := 0#8, d0 := 2#32 } ∧
    answer (.rbStatus .rx 0#8) fresh = some { status := .ok, opc := 0x08#8, tag := 0#8, d0 := 1#32 } := by decide
theorem test_rbBegindr : seen (fun t => (t.rx.exposed, t.rx.inQueue, t.lastAnswer)) (.rbBegindr .rx 0#8 6#32)
    { acquired with rx := ring 5 6 0 [(5, 0x11#8), (6, 0x12#8), (7, 0x13#8)] } =
    some (3, 6, some { status := .ok, opc := 0x09#8, tag := 0#8, wrapped := true, d0 := 5#32, d1 := 3#32,
                       bytes := [0x11#8, 0x12#8, 0x13#8] }) := by decide
theorem test_rbEnddr : seen State.rx (.rbEnddr .rx 0#8 3#32) { acquired with rx := ring 5 6 3 [] } =
    some (ring 0 3 0 []) := by decide
theorem test_rbClose : seen State.tx (.rbClose .tx 0#8) acquired = some (RingBuffer.closedOver []) := by decide

/-! ### The line (examples of R152 to R172, with eight bytes for the examples' sixty-four) -/

theorem test_acquire : seen (fun t => (t.line, t.outN, t.lastAnswer)) (.acquire false 0#8) fresh =
    some (0xA6260000#32, [.stateChanged 0xA6260000#32],
      some { status := .ok, opc := 0x10#8, tag := 0#8, d0 := 0xA6260000#32 }) := by decide
theorem test_acquire_contended :
    answer (.acquire false 0#8) acquired = some { status := .exclusiveAccess, opc := 0x10#8, tag := 0#8 } ∧
    seen State.watchMask (.acquire true 1#8) acquired = some 0x80000000#32 := by decide
theorem test_release : seen (fun t => (t.line, t.outN)) (.release 0#8) acquired = some (0#32, [.stateChanged 0#32]) ∧
    answer (.release 0#8) fresh = some { status := .notOpen, opc := 0x11#8, tag := 0#8 } := by decide
/-- Vector LS-A, last row (R155, R271): RELEASE leaves `State` 0 beside two open, empty buffers; GETSTATE then folds them. -/
theorem test_release_then_getstate : (seen id (.release 0#8) acquired).bind
      (fun s => seen (fun t => (t.line, t.outN, t.outH.map Response.d0)) (.getstate 0#8) s) =
    some (0x06060000#32, [.stateChanged 0#32, .stateChanged 0x06060000#32], [0#32, 0x06060000#32]) := by decide
/-- RX closed after an acquisition, then folded: `FULL` and, by the pseudocode of R261, `LOW` (log entry 23). -/
theorem test_close_then_getstate : (seen id (.rbClose .rx 0#8) acquired).bind (seen State.line (.getstate 0#8)) =
    some 0xA6228000#32 := by decide
theorem test_lreset : seen (fun t => (t.rx.inQueue, t.line, t.outN)) (.lreset 0#8)
    { acquired with line := 0xA6200000#32, tx := ring 0 4 0 [], rx := ring 0 4 0 [] } =
    some (0, 0xA6260000#32, [.stateChanged 0xA6260000#32]) := by decide
theorem test_setstate : seen (fun t => (t.line, t.outN)) (.setstate 0#8 4#32 4#32) acquired =
      some (0xA6260004#32, [.stateChanged 0xA6260004#32]) ∧
    answer (.setstate 0#8 0x40000000#32 0x40000000#32) acquired =
      some { status := .badArgument, opc := 0x13#8, tag := 0#8 } := by decide
theorem test_setstate_readonly : seen (fun t => (t.line, t.outN)) (.setstate 0#8 4#32 4#32)
    { acquired with bank := { LinkBank.defaults with flowControlMode := 4#32 } } = some (0xA6260000#32, []) := by decide
theorem test_getstate : answer (.getstate 0#8) acquired =
      some { status := .ok, opc := 0x14#8, tag := 0#8, d0 := 0xA6260000#32 } ∧
    seen State.line (.getstate 0#8) fresh = some 0x00808000#32 := by decide
theorem test_watchstate_parks : seen (fun t => (t.watchMask, t.outH)) (.watchstate 0#8 0#32 0x40000#32) active =
    some (0x40040000#32, []) := by decide
theorem test_watchstate_inactive : answer (.watchstate 0#8 0#32 0x40000#32) acquired =
    some { status := .ioError, opc := 0x15#8, tag := 0#8, d0 := 0xA6260000#32 } := by decide

/-- The wait that R163's example parks in slot 0. -/
def sleeper : Wait :=
  { kind := .watch, target := 0#32, mask := 0x40000#32, auto := true, awake := false, port := .H }

/-- The line with that wait parked. -/
def parked : State := { active with slots := [some sleeper, none], watchMask := 0x40040000#32 }

theorem test_cancelwait : seen (fun t => (t.outH, t.outW, t.watchMask)) (.cancelwait 0#8) { parked with issuer := .W } =
    some ([{ status := .cancelled, opc := 0x15#8, tag := 0#8 }], [{ status := .ok, opc := 0x16#8, tag := 0#8 }], 0#32) := by
  decide
theorem test_terminate : seen (fun t => (t.outH, t.terminating, t.slots, t.watchMask)) (.terminate 0#8) parked =
    some ([{ status := .offline, opc := 0x15#8, tag := 0#8 }, { status := .ok, opc := 0x17#8, tag := 0#8 }], true,
      [none, none], 0#32) := by decide
theorem test_snapshot : (seen State.outN (.snapshot 0#8) fresh).map
      (List.map fun n => match n with | .configSnapshot c => c.frame | .stateChanged _ => 0#160) =
    some [0x00000001_00000000_00002580_13110000_01020802#160] := by decide

/-! ### Transfers (examples of R263, R266, R269) -/

/-- Two bytes enqueued: the copy, then the fold, which clears `RXQ_EMPTY` and `RXQ_LOW_WATER` (2 is not below 2). -/
theorem test_enqRx_copy : ((nextOf (exec (.enqRx 0#8 [1#8, 2#8]) active)).bind fun t =>
      nextOf (takeTurn (.transfer .H) t)).map (fun t => (t.rx, t.line, t.outH)) =
    some (ring 0 2 0 [(0, 1#8), (1, 2#8)], 0xE6260000#32, []) := by decide
theorem test_enqRx_fold : ((nextOf (takeTurn (.transfer .W) { active with
        rx := ring 0 2 0 []
        xferW := .fold { op := .enqRx, tag := 7#8, a := 2#32, b := 0#32, payload := [1#8, 2#8] } 2 [] })).map
      fun t => (t.line, t.outW, t.outN)) =
    some (0xE6200000#32, [{ status := .ok, opc := 0x20#8, tag := 7#8, d0 := 2#32 }], [.stateChanged 0xE6200000#32]) := by
  decide
theorem test_deqRx : answer (.deqRx 0#8 1#32 2#32) active = some { status := .badArgument, opc := 0x21#8, tag := 0#8 } ∧
    answer (.deqRx 0#8 64#32 0#32) acquired = some { status := .notOpen, opc := 0x21#8, tag := 0#8 } := by decide
theorem test_deqRx_copy : ((nextOf (takeTurn (.transfer .H) { active with
        rx := ring 7 2 1 [(0, 2#8), (7, 1#8)]
        xferH := .copy { op := .deqRx, tag := 0#8, a := 64#32, b := 0#32, payload := [] } })).map
      fun t => (t.rx.inQueue, t.rx.lastChar, t.rx.exposed, t.xferH)) =
    some (0, 1, 0, .fold { op := .deqRx, tag := 0#8, a := 64#32, b := 0#32, payload := [] } 2 [1#8, 2#8]) := by decide
theorem test_enqTx : answer (.enqTx 0#8 [0x48#8, 0x45#8]) fresh =
    some { status := .ok, opc := 0x22#8, tag := 0#8, d0 := 0#32 } := by decide

/-! ### Events (examples of R191 to R211) -/

theorem test_execEvActive : seen (fun t => (t.line, t.outN.length, t.bank)) (.execEvActive 0#8 1#32)
    { acquired with bank := { LinkBank.defaults with baudRate := 300#32 } } =
    some (0xE6260000#32, 2, LinkBank.defaults) := by decide
theorem test_execEvDataRate : seen (fun t => t.bank.baudRate) (.execEvDataRate 0#8 19200#32) acquired =
      some 19200#32 ∧
    answer (.execEvDataRate 0#8 49#32) acquired = some { status := .badArgument, opc := 0x30#8, tag := 0#8 } := by decide
theorem test_execEvDataSize : seen (fun t => t.bank.charLength) (.execEvDataSize 0#8 7#32) acquired = some 7#8 ∧
    seen (fun t => (t.bank.charLength, t.outN)) (.execEvDataSize 0#8 9#32) acquired = some (8#8, []) := by decide
theorem test_execEvStopBits : seen (fun t => t.bank.stopBits) (.execEvStopBits 0#8 4#32) acquired = some 4#8 ∧
    answer (.execEvStopBits 0#8 21#32) acquired = some { status := .badArgument, opc := 0x30#8, tag := 0#8 } := by decide
theorem test_execEvTxParity : seen (fun t => t.bank.txParity) (.execEvTxParity 0#8 3#32) acquired = some 3#8 ∧
    answer (.execEvTxParity 0#8 0#32) acquired = some { status := .badArgument, opc := 0x30#8, tag := 0#8 } := by decide
theorem test_execEvRxParity : seen (fun t => t.bank.rxParity) (.execEvRxParity 0#8 6#32) acquired = some 6#8 ∧
    answer (.execEvRxParity 0#8 2#32) acquired = some { status := .badArgument, opc := 0x30#8, tag := 0#8 } := by decide
theorem test_execEvXonByte : seen (fun t => t.bank.xonByte) (.execEvXonByte 0#8 0x41#32) acquired = some 0x41#8 := by decide
theorem test_execEvXoffByte : seen (fun t => t.bank.xoffByte) (.execEvXoffByte 0#8 0x42#32) acquired = some 0x42#8 := by
  decide
theorem test_execEvSpecialByte : seen (fun t => t.bank.specialChars) (.execEvSpecialByte 0#8 0x0D#32) acquired =
    some 0x2000#256 := by decide
theorem test_execEvValidDataByte : seen (fun t => t.bank.specialChars) (.execEvValidDataByte 0#8 0x0D#32)
    { acquired with bank := { LinkBank.defaults with specialChars := 0x6000#256 } } = some 0x4000#256 := by decide
theorem test_execEvMinLatency : seen (fun t => t.bank.snapshot.w1) (.execEvMinLatency 0#8 1#32) acquired =
    some 0x13110100#32 := by decide
theorem test_execEvDataLatency : seen (fun t => t.bank.dataLatency) (.execEvDataLatency 0#8 1000#32) acquired =
    some 1000#32 := by decide
theorem test_execEvCharLatency : seen (fun t => t.bank.charLatency) (.execEvCharLatency 0#8 50#32) acquired =
    some 50#32 := by decide
theorem test_execEvFlowControl : seen (fun t => t.bank.snapshot.w3) (.execEvFlowControl 0#8 4#32) acquired = some 4#32 ∧
    answer (.execEvFlowControl 0#8 1#32) acquired = some { status := .badArgument, opc := 0x30#8, tag := 0#8 } := by decide
theorem test_execEvLineBreak : seen (fun t => (t.line, t.outN.head?)) (.execEvLineBreak 0#8 1#32) active =
    some (0xE6260002#32, some (.stateChanged 0xE6260002#32)) := by decide
theorem test_queue_events : seen (fun t => (t.rx, t.wmRx, t.outN.length)) (.execEvRxqSize 0#8 4096#32) acquired =
      some (acquired.rx, acquired.wmRx, 1) ∧
    seen (fun t => (t.tx, t.wmTx, t.outN.length)) (.execEvTxqHighWater 0#8 48#32) acquired =
      some (acquired.tx, acquired.wmTx, 1) := by decide

/-! ### Read-back (examples of R231 to R251) -/

theorem test_reqEvActive : answer (.reqEvActive 0#8) active =
    some { status := .ok, opc := 0x31#8, tag := 0#8, d0 := 1#32 } := by decide
theorem test_reqEvDataRate : answer (.reqEvDataRate 0#8) fresh =
    some { status := .ok, opc := 0x31#8, tag := 0#8, d0 := 9600#32 } := by decide
theorem test_reqEvSpecialByte : answer (.reqEvSpecialByte 0#8) active =
    some { status := .badArgument, opc := 0x31#8, tag := 0#8 } := by decide
theorem test_reqEvLineBreak : answer (.reqEvLineBreak 0#8) (lineWith 0xE6260002#32) =
    some { status := .ok, opc := 0x31#8, tag := 0#8, d0 := 1#32 } := by decide
theorem test_req_queue_figures :
    (answer (.reqEvRxqSize 0#8) acquired).map Response.d0 = some 8#32 ∧
    (answer (.reqEvTxqHighWater 0#8) acquired).map Response.d0 = some 5#32 ∧
    (answer (.reqEvRxqLowWater 0#8) acquired).map Response.d0 = some 2#32 ∧
    (answer (.reqEvRxqSize 0#8) fresh).map Response.d0 = some 0#32 := by decide

/-! ### Steps -/

/-- A word of the table placed for the fetch is the next command the machine carries out. -/
theorem test_withFetchWord : (nextOf (step (State.reset.withFetchWord 32 0x00000010))).map (fun t => (t.line, t.pendH)) =
    some (0xA6260000#32, []) := by decide

/-- The re-test of a wait that deactivation woke (R191, R166). -/
theorem test_retest : (nextOf (takeTurn (.retest 0) { acquired with slots := [some { sleeper with awake := true }, none] })).map
      (fun t => (t.outH, t.slots)) =
    some ([{ status := .ioError, opc := 0x15#8, tag := 0#8, d0 := 0xA6260000#32 }], [none, none]) := by decide

/-- The frame of a StateChanged, R290's example. -/
theorem test_stateChanged_frame : stateChangedFrame 0xE6200000#32 = 0xE6200000_00000001#64 := by decide

/-! ### Witnesses: for each obligation with hypotheses, states and operands that meet them, clause by clause -/

/-- A state that an outcome holds, with a property that can be checked. -/
theorem answers {o : Host.Outcome State Fault Refusal} {Q : State → Prop} [DecidablePred Q]
    (h : (nextOf o).any (fun t => decide (Q t)) = true) : ∃ t, o = .next t ∧ Q t := by
  cases o with
  | next t => exact ⟨t, rfl, of_decide_eq_true h⟩
  | fault r => exact absurd h Bool.false_ne_true
  | refused r => exact absurd h Bool.false_ne_true

theorem names_none {f : Frame} (h : (decode f []).toOption = none) : ∀ i, decode f [] ≠ .ok i := fun i hi =>
  absurd (congrArg Except.toOption hi) (by rw [h]; exact (Option.some_ne_none i).symm)

theorem witness_DecodeInvertsEncode : (Instr.rbPushbulk .tx 3#8 [1#8, 2#8]).wellFormed ∧ (Instr.enqRx 3#8 []).wellFormed ∧
    (Instr.watchstate 0xFF#8 0xFFFFFFFF#32 0#32).wellFormed := by decide

/-- RB_INIT does not name `B`. -/
theorem witness_FrameFieldsBecomeOperands :
    decode 0x00000000_00000008_00000000#96 [] = .ok (.rbInit .rx 0#8 8#32) ∧
    (∀ f g : Frame, f = 0x00000000_00000008_00000000#96 → g = 0x00000009_00000008_00000000#96 →
      opcOf g = opcOf f ∧ selOf g = selOf f ∧ tagOf g = tagOf f ∧ rsvOf g = rsvOf f ∧
      (namesA (opcOf f) → operandA g = operandA f) ∧ (namesB (opcOf f) → operandB g = operandB f)) := by
  refine ⟨by decide, ?_⟩
  rintro f g rfl rfl
  decide

/-- Frames on both sides of each condition of R98. -/
theorem witness_DecoderRefusesExactly :
    (malformed 0x0000000C#96 ∧ malformed 0x00000032#96) ∧ (malformed 0x01000014#96 ∧ malformed 0x00000200#96) ∧
    ¬ malformed 0x0000010B#96 ∧ ¬ malformed 0x00000110#96 :=
  ⟨⟨by decide, by decide⟩, ⟨by decide, by decide⟩, by decide, by decide⟩

/-- The values of SEL on both sides of each bound of R97. -/
theorem witness_noKind : noKind 0x0F#8 ∧ noKind 0x16#8 ∧ noKind 0xFF#8 ∧ ¬ noKind 0x0E#8 ∧ ¬ noKind 0x10#8 ∧
    ¬ noKind 0x15#8 := by decide

/-- A command alone on port W. -/
def onW (f : Frame) : State := { fresh with pendW := [{ frame := f, payload := [] }] }

theorem witness_FramesThatNameNothingAreAnswered :
    ((onW 0x0000000C#96).pend .W = [{ frame := 0x0000000C#96, payload := [] }] ∧ (onW 0x0000000C#96).xfer .W = .idle ∧
      malformed 0x0000000C#96) ∧
    (opcOf 0x00000F31#96 = 0x31#8 ∧ rsvOf 0x00000F31#96 = 0x00#8) ∧
    ((onW (mkFrame 0x30#8 0x16#8 7#8 1#32 2#32)).pend .W =
        [{ frame := mkFrame 0x30#8 0x16#8 7#8 1#32 2#32, payload := [] }] ∧
      (onW (mkFrame 0x30#8 0x16#8 7#8 1#32 2#32)).xfer .W = .idle) := by decide

/-- A GETSTATE presented on port H. -/
def asked : State := { parked with pendH := [{ frame := 0x00000014#96, payload := [] }] }

theorem witness_StepRunsTheDecodedInstruction :
    (({ asked with schedule := [.accept .H] } : State).schedule = [.accept .H] ∧ asked.xfer .H = .idle ∧
      decode 0x00000014#96 [] = .ok (.getstate 0#8)) ∧
    (asked.schedule = [] ∧ asked.xferH = .idle ∧ asked.xferW = .idle ∧ (∀ o ∈ asked.slots, ∀ x ∈ o, x.awake = false)) ∧
    ({ asked with xferH := .fold { op := .enqRx, tag := 0#8, a := 0#32, b := 0#32, payload := [] } 0 [] } : State).xfer .H ≠
      .idle := by decide

theorem witness_HardwareResetRestoresEverything :
    (∃ t, takeTurn .reset { parked with terminating := true } = .next t ∧ t.terminating = false) ∧
    ({ parked with schedule := [.reset, .accept .W] } : State).schedule = [.reset, .accept .W] :=
  ⟨answers (by decide), rfl⟩

theorem witness_ResetStateIsGood : small.legal ∧ ({ small with depthRx := 1, depthTx := 2 ^ 31 - 1, nwatch := 256 } : Params).legal := by
  decide

theorem witness_RbInitRule : (0#32 = 0#32 ∨ fresh.depth .rx < (0#32).toNat) ∧ (fresh.depth .rx < (9#32).toNat) ∧
    ¬ (8#32 = 0#32 ∨ fresh.depth .rx < (8#32).toNat) := by decide

theorem witness_RbPushRule : 0xFF#32 < 0x100#32 ∧
    ((0xFF#32 : Word) ≤ 0xFF#32 ∧ (ring 3 8 0 []).inQueue = (ring 3 8 0 []).size) ∧
    (({ acquired with rx := ring 3 7 0 [] } : State).rb .rx).inQueue ≠ (({ acquired with rx := ring 3 7 0 [] } : State).rb .rx).size ∧
    ({ acquired with rx := ring 3 7 0 [] } : State).ringOk .rx := by decide

theorem witness_RbPopRule : (fresh.rb .tx).inQueue = 0 ∧ (({ acquired with tx := ring 7 1 1 [] } : State).rb .tx).inQueue ≠ 0 ∧
    ({ acquired with tx := ring 7 1 1 [] } : State).ringOk .tx := by decide

theorem witness_RbPushbulkRule : payloadFits [1#8, 2#8, 3#8] ∧ payloadFits [] ∧
    ({ acquired with rx := ring 0 6 0 [(0, 9#8)] } : State).ringOk .rx ∧ fresh.ringOk .rx := by decide

theorem witness_RbPopbulkRule : ({ acquired with rx := ring 6 4 2 [(6, 0x0A#8)] } : State).ringOk .rx ∧ fresh.ringOk .tx := by decide

theorem witness_RbQueryRules : acquired.params.legal ∧ ({ acquired with rx := ring 0 8 8 [] } : State).ringOk .rx := by decide

/-- A window that wraps, one that ends at the boundary, and one that does not reach it. -/
theorem witness_RbBegindrRule : ({ acquired with rx := ring 5 6 0 [] } : State).ringOk .rx ∧
    min (6#32 : Word).toNat (ring 5 6 0 []).inQueue = 6 ∧ (ring 5 6 0 []).size - (ring 5 6 0 []).lastChar = 3 ∧
    min (3#32 : Word).toNat (ring 5 6 0 []).inQueue = 3 ∧ min (0#32 : Word).toNat (ring 5 6 0 []).inQueue = 0 := by decide

theorem witness_RbEnddrRule : (ring 5 6 3 []).exposed < (4#32 : Word).toNat ∧ ((3#32 : Word).toNat ≤ (ring 5 6 3 []).exposed ∧
    (3#32 : Word) ≠ 0#32) ∧ (0#32 : Word) = 0#32 := by decide

theorem witness_RingOperationsAreLocal : ringDirOf (.rbPop .rx 0#8) = some .rx ∧
    (∃ t, exec (.rbPop .rx 0#8) { acquired with rx := ring 0 1 0 [(0, 5#8)] } = .next t ∧ t.rx.inQueue = 0) ∧
    ({ fresh with rx := ring 0 1 0 [(0, 5#8)] } : State).rb .rx = ({ acquired with rx := ring 0 1 0 [(0, 5#8)] } : State).rb .rx ∧
    fresh.depth .rx = acquired.depth .rx := ⟨rfl, answers (by decide), by decide, by decide⟩

theorem witness_RingBufferIsFifo : acquired.params.legal ∧ ({ acquired with rx := ring 7 2 1 [(0, 2#8), (7, 1#8)] } : State).ringOk .rx ∧
    ∀ i ∈ [Instr.rbPush .rx 0#8 3#32, .rbPop .rx 0#8, .rbBegindr .rx 0#8 8#32, .rbEnddr .rx 0#8 1#32],
      ringDirOf i = some .rx := by decide

/-- A wrapped window and an empty one. -/
theorem witness_DirectReadEqualsBulkPop : acquired.params.legal ∧ ({ acquired with rx := ring 5 6 0 [] } : State).ringOk .rx ∧
    (answer (.rbBegindr .rx 0#8 6#32) { acquired with rx := ring 5 6 0 [] }).map Response.wrapped = some true ∧
    (answer (.rbBegindr .rx 0#8 6#32) acquired).map Response.d1 = some 0#32 := by decide

/-- The fall of `RXQ_EMPTY` is a change that a parked wait watches. -/
theorem witness_ChangeStateRule : ∃ new delta : Word,
    new = (parked.line &&& ~~~0x40000#32) ||| (0#32 &&& 0x40000#32) ∧ delta = parked.line ^^^ new ∧
    delta &&& parked.watchMask ≠ 0#32 := ⟨_, _, rfl, rfl, by decide⟩

theorem witness_FoldRule : ({ active with line := 0#32 } : State).rx.inQueue = active.rx.inQueue ∧
    ({ active with line := 0#32 } : State).wmRx = active.wmRx ∧ ({ active with line := 0#32 } : State).wmTx = active.wmTx := by decide

/-- The boundary values of the occupancy: 0, the two thresholds, the capacity, and a buffer of one byte; buffers closed before
any acquisition and after one. -/
theorem witness_QueueBitsByOccupancy :
    (2 * 8 / 3 = 5 ∧ 5 / 2 = 2 ∧ acquired.wmRx = { bufferSize := 8, highWater := 5, lowWater := 2 } ∧
      acquired.rx.size = 8 ∧ acquired.rx.inQueue = 0) ∧
    (fresh.rx.closedOk ∧ fresh.tx.closedOk ∧ fresh.wmRx.lowWater = 0) ∧
    (∃ t, exec (.rbClose .rx 0#8) acquired = .next t ∧ (t.rx.closedOk ∧ t.wmRx.lowWater = 2)) ∧
    (∃ t, exec (.rbClose .tx 0#8) acquired = .next t ∧ (t.tx.closedOk ∧ t.wmTx.lowWater = 2)) ∧
    ({ acquired with rx := ring 0 2 0 [] } : State).rx.inQueue = 2 ∧ ({ acquired with rx := ring 0 5 0 [] } : State).rx.inQueue = 5 ∧
    ({ acquired with rx := ring 0 8 0 [] } : State).rx.inQueue = 8 ∧ (2 * 1 / 3 = 0 ∧ 0 / 2 = 0) :=
  ⟨by decide, by decide, answers (by decide), answers (by decide), by decide⟩

theorem witness_AcquireRule :
    ({ acquired with terminating := true } : State).terminating = true ∧
    (fresh.terminating = false ∧ ¬ hasBit fresh.line 0x80000000#32 ∧ fresh.params.legal) ∧
    (acquired.terminating = false ∧ hasBit acquired.line 0x80000000#32) ∧
    ¬ ((2#8 : Tag).toNat < acquired.params.nwatch ∧ acquired.slot (2#8 : Tag).toNat = none) ∧
    ¬ ((0#8 : Tag).toNat < parked.params.nwatch ∧ parked.slot (0#8 : Tag).toNat = none) ∧
    ((1#8 : Tag).toNat < parked.params.nwatch ∧ parked.slot (1#8 : Tag).toNat = none) := by decide

theorem witness_ReleaseRule : ({ acquired with terminating := true } : State).terminating = true ∧
    (fresh.terminating = false ∧ ¬ hasBit fresh.line 0x80000000#32) ∧
    (parked.terminating = false ∧ hasBit parked.line 0x80000000#32 ∧ parked.line &&& parked.watchMask ≠ 0#32) := by decide

theorem witness_SetStateRule :
    (0x00000001#32 : Word) &&& (0x80000000#32 ||| 0x40000000#32 ||| ~~~0x2020001E#32) ≠ 0#32 ∧
    ((0x2020001E#32 : Word) &&& (0x80000000#32 ||| 0x40000000#32 ||| ~~~0x2020001E#32) = 0#32 ∧
      ¬ hasBit fresh.line 0x80000000#32) ∧ hasBit acquired.line 0x80000000#32 := by decide

/-- The clauses in their order, with the line active, inactive, free and terminating. -/
theorem witness_WatchStateRule :
    true = decide ((0x40000#32 : Word) &&& 0x40000000#32 = 0#32) ∧
    false = decide ((0x40040000#32 : Word) &&& 0x40000000#32 = 0#32) ∧
    ({ acquired with terminating := true } : State).terminating = true ∧
    (fresh.terminating = false ∧ ¬ hasBit fresh.line 0x80000000#32) ∧
    (hasBit acquired.line 0x80000000#32 ∧ ¬ hasBit acquired.line 0x40000000#32) ∧
    (hasBit active.line 0x80000000#32 ∧ ¬ (true = true ∧ ¬ hasBit active.line 0x40000000#32) ∧
      (active.line ^^^ 0x40000#32) &&& 0x40000#32 = 0#32) ∧
    ((active.line ^^^ 0#32) &&& 0x40000#32 ≠ 0#32 ∧
      ¬ ((2#8 : Tag).toNat < active.params.nwatch ∧ active.slot (2#8 : Tag).toNat = none)) ∧
    ((1#8 : Tag).toNat < active.params.nwatch ∧ active.slot (1#8 : Tag).toNat = none) := by decide

/-- A woken wait in slot 1 of a line. -/
def woken (s : State) (x : Wait) : State := { s with slots := [none, some { x with awake := true }], watchMask := 0#32 }

/-- A parked ACQUIRE. -/
def claimant : Wait := { kind := .acq, target := 0#32, mask := 0x80000000#32, auto := false, awake := false, port := .W }

theorem witness_RetestRule :
    ((∀ x ∈ parked.slot 0, x.awake = false) ∧ parked.slot 1 = none ∧ parked.slot 2 = none) ∧
    ((woken acquired sleeper).slot 1 = some { sleeper with awake := true } ∧ sleeper.kind = .watch ∧ sleeper.auto = true ∧
      ¬ hasBit acquired.line 0x40000000#32) ∧
    ((woken (lineWith 0xE6220000#32) sleeper).slot 1 = some { sleeper with awake := true } ∧
      ¬ (sleeper.auto = true ∧ ¬ hasBit (0xE6220000#32 : Word) 0x40000000#32) ∧
      ((0xE6220000#32 : Word) ^^^ sleeper.target) &&& sleeper.mask = 0#32) ∧
    ((woken active sleeper).slot 1 = some { sleeper with awake := true } ∧ (active.line ^^^ sleeper.target) &&& sleeper.mask ≠ 0#32) ∧
    ((woken fresh claimant).slot 1 = some { claimant with awake := true } ∧ claimant.kind = .acq ∧
      ¬ hasBit fresh.line 0x80000000#32) ∧
    ((woken active claimant).slot 1 = some { claimant with awake := true } ∧ hasBit active.line 0x80000000#32) := by decide

theorem sleeper_ok : sleeper.ok := by
  show sleeper.auto = autoOf sleeper.mask
  decide
theorem claimant_ok : ({ claimant with awake := true } : Wait).ok := ⟨rfl, rfl, rfl⟩

theorem witness_CancelWaitRule : parked.params.nwatch ≤ (2#8 : Tag).toNat ∧ parked.slot (1#8 : Tag).toNat = none ∧
    ((0#8 : Tag).toNat < parked.params.nwatch ∧ parked.slot (0#8 : Tag).toNat = some sleeper) := by decide

theorem witness_SnapshotAndEnqTxRules : payloadFits [0x48#8, 0x45#8] := by decide

/-- The jobs of the transfers in flight. -/
def enqJob : XferJob := { op := .enqRx, tag := 1#8, a := 2#32, b := 0#32, payload := [1#8, 2#8] }
def deqJob : XferJob := { op := .deqRx, tag := 1#8, a := 64#32, b := 0#32, payload := [] }

/-- Six bytes buffered from index 3, both cursors short of the end of storage, and a transfer in flight on port W. -/
def moving (x : Xfer) : State := { active with rx := ring 3 4 0 [(4, 9#8)], xferW := x }

theorem witness_EnqRxRule : payloadFits [1#8, 2#8] ∧ (moving (.copy enqJob)).xfer .W = .copy enqJob ∧ enqJob.op = .enqRx ∧
    (moving (.copy enqJob)).ringOk .rx ∧ (moving (.fold enqJob 2 [])).xfer .W = .fold enqJob 2 [] := by decide

theorem witness_DeqRxRule : (1#32 : Word) < 2#32 ∧ ((2#32 : Word) ≤ 2#32 ∧ ¬ hasBit acquired.line 0x40000000#32) ∧
    hasBit active.line 0x40000000#32 ∧ (moving (.copy deqJob)).xfer .W = .copy deqJob ∧ deqJob.op = .deqRx ∧
    (moving (.copy deqJob)).ringOk .rx ∧ (moving (.fold deqJob 1 [9#8])).xfer .W = .fold deqJob 1 [9#8] := by decide

theorem witness_TransfersKeepByteOrder : (moving (.copy enqJob)).ringOk .rx ∧
    (∃ t, takeTurn (.transfer .W) (moving (.copy enqJob)) = .next t ∧ t.rx.inQueue = 6) ∧
    ∃ t, takeTurn (.transfer .W) (moving (.copy deqJob)) = .next t ∧ t.rx.inQueue = 0 :=
  ⟨by decide, answers (by decide), answers (by decide)⟩

theorem witness_EventsNeedAcquisition : (Instr.execEvFlowControl 0#8 1#32).opc = 0x30#8 ∧ ¬ hasBit fresh.line 0x80000000#32 := by
  decide

theorem witness_ActivationRule : (hasBit acquired.line 0x80000000#32 ∧ (1#32 : Word) ≠ 0#32 ∧ ¬ hasBit acquired.line 0x40000000#32) ∧
    (hasBit active.line 0x80000000#32 ∧ hasBit active.line 0x40000000#32) := by decide

theorem witness_FramingEventRules : hasBit acquired.line 0x80000000#32 := by decide
theorem witness_ByteEventRules : hasBit acquired.line 0x80000000#32 ∧ (0xFF#32 : Word) < 0x100#32 ∧ (0xFF#32 : Word) ≤ 0xFF#32 := by
  decide
theorem witness_LatencyFlowAndBreakEventRules : hasBit active.line 0x80000000#32 := by decide
theorem witness_QueueEventsAreNoOps : hasBit active.line 0x80000000#32 := by decide

/-- A rate stored, a rate refused, and a turn that changes what a read-back gives. -/
theorem witness_ReadBackReturnsWhatWasStored :
    storesOf (.execEvDataRate 0#8 19200#32) = some (0x01#8, 19200#32) ∧
    (∃ t, exec (.execEvDataRate 0#8 19200#32) acquired = .next t ∧ (t.lastAnswer.map Response.status = some .ok)) ∧
    (∃ t, exec (.execEvDataRate 0#8 1#32) acquired = .next t ∧ (t.lastAnswer.map Response.status = some .badArgument)) ∧
    readsBackOf (.reqEvDataRate 0#8) = some 0x01#8 ∧
    ∃ t, takeTurn .reset { acquired with bank := { LinkBank.defaults with baudRate := 300#32 } } = .next t ∧
      t.readBackOf 0x01#8 ≠ ({ acquired with bank := { LinkBank.defaults with baudRate := 300#32 } } : State).readBackOf 0x01#8 :=
  ⟨by decide, answers (by decide), answers (by decide), by decide, answers (by decide)⟩

theorem witness_ErrorsChangeNothing : ∃ t, exec (.rbPop .rx 0#8) acquired = .next t ∧
    (t.out acquired.issuer ≠ acquired.out acquired.issuer ∧ t.lastAnswer = some { status := .queueEmpty, opc := 0x02#8, tag := 0#8 }) :=
  answers (by decide)

/-- A BadArgument answer without data. -/
def badAnswer (opc tag : Byte) : Response := { status := .badArgument, opc := opc, tag := tag }

/-- Commands that BadArgument answers on the active line with a wait parked in slot 0 of two, one for each cause of R283, at
the first value each check refuses. -/
def badCommands : List Instr :=
  [.rbInit .rx 0#8 9#32, .rbInit .tx 0#8 0#32, .rbPush .rx 0#8 0x100#32, .rbEnddr .rx 0#8 1#32, .setstate 0#8 0#32 1#32,
    .acquire true 0#8, .acquire true 2#8, .watchstate 0#8 0#32 0x40000#32, .watchstate 2#8 0#32 0x40000#32, .cancelwait 1#8,
    .cancelwait 2#8, .execEvDataSize 0#8 9#32, .execEvXonByte 0#8 0x100#32, .execEvFlowControl 0#8 1#32,
    .reqEvSpecialByte 0#8, .reqEvValidDataByte 0#8, .deqRx 0#8 0#32 1#32]

/-- Each error status, produced: by the instructions, by frames that name none, by a re-test. -/
theorem witness_EveryStatusHasItsCause :
    (∃ t, exec (.rbPush .rx 0#8 1#32) fresh = .next t ∧
      t.out .H = fresh.out .H ++ [{ status := .queueFull, opc := 0x01#8, tag := 0#8 }]) ∧
    (∃ t, exec (.rbPop .rx 0#8) fresh = .next t ∧
      t.out .H = fresh.out .H ++ [{ status := .queueEmpty, opc := 0x02#8, tag := 0#8 }]) ∧
    (∃ t, exec (.release 0#8) fresh = .next t ∧
      t.out .H = fresh.out .H ++ [{ status := .notOpen, opc := 0x11#8, tag := 0#8 }]) ∧
    (∃ t, exec (.acquire false 0#8) active = .next t ∧
      t.out .H = active.out .H ++ [{ status := .exclusiveAccess, opc := 0x10#8, tag := 0#8 }]) ∧
    (∃ t, exec (.terminate 0#8) parked = .next t ∧ t.out .H = parked.out .H ++
      [{ status := .offline, opc := 0x15#8, tag := 0#8 }, { status := .ok, opc := 0x17#8, tag := 0#8 }]) ∧
    (∃ t, exec (.cancelwait 0#8) parked = .next t ∧ t.out .H = parked.out .H ++
      [{ status := .cancelled, opc := 0x15#8, tag := 0#8 }, { status := .ok, opc := 0x16#8, tag := 0#8 }]) ∧
    (∃ t, exec (.watchstate 0#8 0#32 0#32) acquired = .next t ∧
      t.out .H = acquired.out .H ++ [{ status := .ioError, opc := 0x15#8, tag := 0#8, d0 := 0xA6260000#32 }]) ∧
    (∀ i ∈ badCommands, answer i parked = some (badAnswer i.opc i.tag)) ∧
    (∀ f ∈ [mkFrame 0x0C#8 0#8 3#8 0#32 0#32, mkFrame 0x30#8 0x0F#8 3#8 0#32 0#32, mkFrame 0x31#8 0x16#8 3#8 0#32 0#32,
        mkFrame 0x17#8 1#8 3#8 0#32 0#32],
      (∀ i, decode f [] ≠ .ok i) ∧ ∃ t, runCommand { frame := f, payload := [] } parked = .next t ∧
        t.out .H = parked.out .H ++ [badAnswer (opcOf f) 3#8]) ∧
    ∃ t, takeTurn (.retest 1) (woken acquired sleeper) = .next t ∧ t.out .H = (woken acquired sleeper).out .H ++
      [{ status := .ioError, opc := 0x15#8, tag := 1#8, d0 := 0xA6260000#32 }] := by
  refine ⟨answers (by decide), answers (by decide), answers (by decide), answers (by decide), answers (by decide),
    answers (by decide), answers (by decide), by decide, ?_, answers (by decide)⟩
  intro f hf
  simp only [List.mem_cons, List.not_mem_nil, or_false] at hf
  rcases hf with rfl | rfl | rfl | rfl <;>
    exact ⟨names_none (by decide), answers (by decide)⟩

/-- An answer, a wait that parks, a transfer that starts. -/
theorem witness_EveryCommandIsAnsweredOrWaits : active.slotsOk ∧
    (∃ t, exec (.getstate 0#8) active = .next t ∧ t.outH.length = 1) ∧
    (∃ t, exec (.watchstate 1#8 0#32 0x40000#32) active = .next t ∧ (t.outH = [] ∧ t.slot 1 ≠ none)) ∧
    ∃ t, exec (.enqRx 0#8 [1#8]) active = .next t ∧ (t.outH = [] ∧ t.xfer .H ≠ .idle) :=
  ⟨by decide, answers (by decide), answers (by decide), answers (by decide)⟩

/-- The fold that ends a transfer, with a change of `State`. -/
theorem witness_StateChangedOnEveryDelta : Turn.transfer .W ≠ .reset ∧
    ∃ t, takeTurn (.transfer .W) (moving (.fold enqJob 2 [])) = .next t ∧ t.line ≠ (moving (.fold enqJob 2 [])).line :=
  ⟨by decide, answers (by decide)⟩

/-- Each transition of the modes, taken. -/
theorem witness_ModeTransitions : (fresh.lineOk ∧ acquired.lineOk ∧ active.lineOk) ∧
    (∃ t, exec (.acquire true 0#8) fresh = .next t ∧ hasBit t.line 0x80000000#32) ∧
    (∃ t, exec (.release 0#8) active = .next t ∧ (¬ hasBit t.line 0x80000000#32 ∧ ¬ hasBit t.line 0x40000000#32)) ∧
    (∃ t, exec (.execEvActive 0#8 1#32) acquired = .next t ∧ hasBit t.line 0x40000000#32) ∧
    (∃ t, exec (.execEvActive 0#8 0#32) active = .next t ∧ ¬ hasBit t.line 0x40000000#32) ∧
    (∃ t, exec (.terminate 0#8) active = .next t ∧ t.terminating ≠ active.terminating) ∧
    ∃ t, exec (.release 0#8) { active with terminating := true } = .next t ∧ t.line = active.line :=
  ⟨by decide, answers (by decide), answers (by decide), answers (by decide), answers (by decide), answers (by decide),
    answers (by decide)⟩

theorem witness_RegistersHaveTheirWriters :
    (∃ t, exec (.acquire false 0#8) fresh = .next t ∧
      ((t.rb .rx).size ≠ (fresh.rb .rx).size ∧ t.wmRx ≠ fresh.wmRx)) ∧
    (∃ t, exec (.rbPush .rx 0#8 1#32) active = .next t ∧ ((t.rb .rx).nextChar ≠ (active.rb .rx).nextChar ∧
      (t.rb .rx).mem ≠ (active.rb .rx).mem)) ∧
    (∃ t, exec (.rbPop .rx 0#8) { active with rx := ring 0 1 0 [] } = .next t ∧ (t.rb .rx).lastChar ≠ 0) ∧
    ∃ t, exec (.execEvSpecialByte 0#8 3#32) active = .next t ∧ t.bank.specialChars ≠ active.bank.specialChars :=
  ⟨answers (by decide), answers (by decide), answers (by decide), answers (by decide)⟩

/-- A line whose queue bits agree, and one that a raw push left stale; a turn from an agreeing quiescent line; RELEASE
granted and refused; reset. -/
theorem witness_QuiescentAgreement : active.queueBitsAgree ∧
    (∃ t, exec (.setstate 0#8 4#32 4#32) active = .next t ∧ t.queueBitsAgree) ∧
    ¬ ({ active with rx := ring 0 3 0 [] } : State).queueBitsAgree ∧
    (∃ t, exec (.getstate 0#8) { active with rx := ring 0 3 0 [] } = .next t ∧ t.queueBitsAgree) ∧
    (¬ hasBit fresh.line 0x80000000#32 ∧ fresh.terminating = false) ∧
    (∃ t, takeTurn (.transfer .W) (moving (.fold enqJob 2 [])) = .next t ∧ t.queueBitsAgree) ∧
    ((woken acquired sleeper).quiescent ∧ (woken acquired sleeper).queueBitsAgree ∧
      ∃ t, takeTurn (.retest 1) (woken acquired sleeper) = .next t ∧ t.quiescent) ∧
    (active.queueBits ≠ 0#32 ∧ ∃ t, exec (.release 0#8) active = .next t ∧ ¬ t.queueBitsAgree) ∧
    (∃ t, exec (.release 0#8) { active with rx := ring 0 3 0 [], tx := ring 0 3 0 [] } = .next t ∧
      (t.queueBits = 0#32 ∧ t.queueBitsAgree)) ∧
    (∃ t, exec (.release 0#8) { active with terminating := true } = .next t ∧ t.line = active.line) ∧
    ∃ t, takeTurn .reset active = .next t ∧ ¬ t.queueBitsAgree :=
  ⟨by decide, answers (by decide), by decide, answers (by decide), by decide, answers (by decide),
    ⟨by decide, by decide, answers (by decide)⟩, ⟨by decide, answers (by decide)⟩, answers (by decide), answers (by decide),
    answers (by decide)⟩

/-- A busy state: a wait asleep in slot 0, a parked ACQUIRE awake in slot 1, a transfer in flight on each port. -/
def busy : State :=
  { active with
    slots := [some sleeper, some { claimant with awake := true }], watchMask := 0x40040000#32
    xferH := .copy deqJob, xferW := .copy enqJob }

theorem busy_inv : busy.Inv where
  params := by decide
  buffers := by decide
  line := by decide
  slots := by decide
  waits := by
    intro x hx
    simp only [busy, List.mem_cons, Option.some.injEq, List.not_mem_nil, or_false] at hx
    rcases hx with rfl | rfl
    · exact sleeper_ok
    · exact claimant_ok
  watchMask := by decide
  noLostWakeup := by
    intro x hx _
    simp only [busy, List.mem_cons, Option.some.injEq, List.not_mem_nil, or_false] at hx
    rcases hx with rfl | rfl
    · show watchTest busy.line sleeper.target sleeper.mask sleeper.auto = .unsatisfied
      decide
    · show hasBit busy.line Bit.acquired
      decide
  terminated := fun h => absurd h (by decide)
  bank := by decide
  wmRx := by decide
  wmTx := by decide
  inputs := ⟨by decide, by decide, fun p c h => absurd h (List.not_mem_nil)⟩

theorem witness_StepKeepsRingBuffers : busy.params.legal ∧ busy.buffersOk ∧ ∃ t, step busy = .next t ∧ t.xferH ≠ busy.xferH :=
  ⟨by decide, by decide, answers (by decide)⟩
theorem witness_StepKeepsStateWord : acquired.lineOk ∧
    ∃ t, step { acquired with pendH := [{ frame := 0x00000001_00000030#96, payload := [] }] } = .next t ∧ t.line ≠ acquired.line :=
  ⟨by decide, answers (by decide)⟩
theorem witness_StepKeepsWatchMask : parked.slotsOk ∧ parked.watchMaskOk ∧
    ∃ t, step { parked with pendH := [{ frame := 0x00000016#96, payload := [] }] } = .next t ∧ t.watchMask ≠ parked.watchMask :=
  ⟨by decide, by decide, answers (by decide)⟩
theorem witness_StepKeepsNoLostWakeup : busy.slotsOk ∧ busy.waitsOk ∧ busy.watchMaskOk ∧ busy.noLostWakeup ∧
    ∃ t, step { busy with schedule := [.retest 1] } = .next t ∧ t.slots ≠ busy.slots :=
  ⟨by decide, busy_inv.waits, by decide, busy_inv.noLostWakeup, answers (by decide)⟩
theorem witness_StepKeepsGoodState : busy.Inv ∧ ∃ t, step busy = .next t ∧ t.xferH ≠ busy.xferH :=
  ⟨busy_inv, answers (by decide)⟩
theorem witness_GoodStateNeverStops : busy.Inv := busy_inv

/-- Two states that differ in a byte outside the window, and a step that reads the window. -/
theorem witness_StaleBytesAreInvisible :
    (moving (.copy deqJob)).params.legal ∧ (moving (.copy deqJob)).buffersOk ∧
    ({ moving (.copy deqJob) with rx := ring 3 4 0 [(0, 7#8), (4, 9#8)] } : State).buffersOk ∧
    (moving (.copy deqJob)).sameButStale { moving (.copy deqJob) with rx := ring 3 4 0 [(0, 7#8), (4, 9#8)] } ∧
    ∃ t, step (moving (.copy deqJob)) = .next t ∧ t.rx.inQueue = 0 :=
  ⟨by decide, by decide, by decide, by decide, answers (by decide)⟩

theorem witness_EverythingSettles : busy.Inv ∧ busy.schedule = [] ∧ busy.pendH = [] ∧ busy.pendW = [] ∧ busy.xferH ≠ .idle :=
  ⟨busy_inv, rfl, rfl, rfl, by decide⟩

end Sys2Proof.Tests
end

section
/-! PROOFS. The register `State` as a set of bits: what its invariants (10_state.md R32) say bit by bit, and that every
change the rules allow keeps them. -/

namespace Sys2Proof.Machine

/-! ### Words as sets of bits -/

/-- A word has no bit outside a mask exactly if each of its bits is one of the mask's. -/
theorem and_not_eq_zero_iff {w m : Word} :
    w &&& ~~~m = 0#32 ↔ ∀ i, w.getLsbD i = true → m.getLsbD i = true := by
  constructor
  · intro h i hi
    have hbit := congrArg (fun v => v.getLsbD i) h
    have hlt : i < 32 := BitVec.lt_of_getLsbD hi
    simpa [hi, hlt] using hbit
  · intro h
    apply BitVec.eq_of_getLsbD_eq
    intro i hi
    have := h i
    simp only [BitVec.getLsbD_and, BitVec.getLsbD_not, hi, decide_true, Bool.true_and, BitVec.getLsbD_zero]
    cases hw : w.getLsbD i <;> simp_all

/-- Two words share no bit exactly if no bit is set in both. -/
theorem and_eq_zero_iff {w m : Word} : w &&& m = 0#32 ↔ ∀ i, w.getLsbD i = true → m.getLsbD i = false := by
  have h := and_not_eq_zero_iff (w := w) (m := ~~~m)
  rw [BitVec.not_not] at h
  rw [h]
  refine forall_congr' fun i => ⟨fun g hi => ?_, fun g hi => ?_⟩
  · simpa [BitVec.lt_of_getLsbD hi] using g hi
  · simpa [BitVec.lt_of_getLsbD hi] using g hi

/-- The test of a single bit of a word. -/
theorem hasBit_twoPow_iff {w : Word} (k : Nat) (hk : k < 32) :
    hasBit w (BitVec.twoPow 32 k) ↔ w.getLsbD k = true := by
  rw [hasBit, Ne, and_eq_zero_iff]
  simp only [BitVec.getLsbD_twoPow, hk, decide_true, Bool.true_and, decide_eq_false_iff_not]
  constructor
  · intro h
    by_contra hw
    exact h fun i hi e => hw (e ▸ hi)
  · intro h g
    exact g k h rfl

theorem hasBit_acquired_iff {w : Word} : hasBit w Bit.acquired ↔ w.getLsbD 31 = true :=
  hasBit_twoPow_iff 31 (by decide)

theorem hasBit_active_iff {w : Word} : hasBit w Bit.active ↔ w.getLsbD 30 = true :=
  hasBit_twoPow_iff 30 (by decide)

theorem hasBit_loop_iff {w : Word} : hasBit w Bit.loop ↔ w.getLsbD 0 = true :=
  hasBit_twoPow_iff 0 (by decide)

/-! ### The masks (R31) -/

theorem visible_bit (i : Nat) : Mask.visible.getLsbD i = (Mask.defined.getLsbD i && decide (i ≠ 0)) := by
  by_cases hi : i < 32
  · revert i; decide
  · simp [BitVec.getLsbD_of_ge, Nat.le_of_not_lt hi]

/-- The queue bits are visible and are neither `ACQUIRED` nor `ACTIVE`. -/
theorem queue_visible {i : Nat} (h : Mask.queue.getLsbD i = true) :
    Mask.visible.getLsbD i = true ∧ i ≠ 31 ∧ i ≠ 30 :=
  (by decide :
    ∀ j < 32, Mask.queue.getLsbD j = true → Mask.visible.getLsbD j = true ∧ j ≠ 31 ∧ j ≠ 30) i
    (BitVec.lt_of_getLsbD h) h

/-- The settable bits are visible and are neither `ACQUIRED` nor `ACTIVE`. -/
theorem settable_visible {i : Nat} (h : Mask.settable.getLsbD i = true) :
    Mask.visible.getLsbD i = true ∧ i ≠ 31 ∧ i ≠ 30 :=
  (by decide :
    ∀ j < 32, Mask.settable.getLsbD j = true → Mask.visible.getLsbD j = true ∧ j ≠ 31 ∧ j ≠ 30) i
    (BitVec.lt_of_getLsbD h) h

/-- The bits ACQUIRE sets are visible. -/
theorem defaultPattern_visible {i : Nat} (h : Mask.defaultPattern.getLsbD i = true) :
    Mask.visible.getLsbD i = true :=
  (by decide : ∀ j < 32, Mask.defaultPattern.getLsbD j = true → Mask.visible.getLsbD j = true) i
    (BitVec.lt_of_getLsbD h) h

theorem active_bit (i : Nat) : Bit.active.getLsbD i = decide (i = 30) := by
  by_cases hi : i < 32
  · revert i; decide
  · simp only [BitVec.getLsbD_of_ge _ _ (Nat.le_of_not_lt hi)]
    symm; simp; omega

/-! ### The invariants of `State` (R32) -/

/-- What R32 says of a word: no bit outside the visible ones, `ACTIVE` only with `ACQUIRED`, and without `ACQUIRED` queue
bits alone. -/
structure LineWord (w : Word) : Prop where
  visible : ∀ i, w.getLsbD i = true → Mask.visible.getLsbD i = true
  active : w.getLsbD 30 = true → w.getLsbD 31 = true
  released : w.getLsbD 31 = false → ∀ i, w.getLsbD i = true → Mask.queue.getLsbD i = true

theorem State.lineOk_iff {s : State} : s.lineOk ↔ LineWord s.line := by
  unfold State.lineOk
  rw [and_not_eq_zero_iff, and_not_eq_zero_iff, hasBit_acquired_iff, hasBit_active_iff, hasBit_loop_iff,
    Bool.not_eq_true, Bool.not_eq_true]
  constructor
  · rintro ⟨hdef, hact, hloop, hrel⟩
    refine ⟨fun i hi => ?_, hact, hrel⟩
    rw [visible_bit, hdef i hi, Bool.true_and, decide_eq_true_eq]
    rintro rfl
    exact Bool.noConfusion (hi.symm.trans hloop)
  · rintro ⟨hvis, hact, hrel⟩
    refine ⟨fun i hi => ?_, hact, ?_, hrel⟩
    · have := hvis i hi
      rw [visible_bit, Bool.and_eq_true] at this
      exact this.1
    · by_contra h0
      have := hvis 0 (by simpa using h0)
      revert this; decide

/-- The word of a line after reset and after RELEASE. -/
theorem LineWord.zero : LineWord 0#32 where
  visible _ hi := by simp at hi
  active hi := by simp at hi
  released _ _ hi := by simp at hi

/-- The changes of `State` that the rules make, by the new bits and the mask of the change-state call. -/
inductive LineWrite (s : State) : Word → Word → Prop
  /-- a fold (R260) -/
  | fold : LineWrite s s.queueBits Mask.queue
  /-- an acquisition (R153) -/
  | acquire : LineWrite s (Mask.defaultPattern ||| s.queueBits) Mask.all
  /-- RELEASE (R155) -/
  | clear : LineWrite s 0#32 Mask.all
  /-- line signals of an acquired line: SETSTATE and EV_LINE_BREAK (R158, R205) -/
  | signals (n m : Word) (acquired : hasBit s.line Bit.acquired) (settable : m &&& ~~~Mask.settable = 0#32) :
      LineWrite s n m
  /-- EV_ACTIVE on an acquired line (R191) -/
  | active (n : Word) (acquired : hasBit s.line Bit.acquired) : LineWrite s n Bit.active

/-- Every change the rules make keeps the invariants of `State`. -/
theorem LineWord.mergeBits {s : State} {n m : Word} (h : LineWord s.line) (hw : LineWrite s n m) :
    LineWord (mergeBits s.line n m) := by
  have hqueue := and_not_eq_zero_iff.mp s.queueBits_queue
  have q31 : Mask.queue.getLsbD 31 = false := by decide
  have q30 : Mask.queue.getLsbD 30 = false := by decide
  cases hw with
  | fold =>
    refine ⟨fun i => ?_, ?_, fun hrel i => ?_⟩
    · rw [mergeBits_bit]
      split
      · exact fun hi => (queue_visible (hqueue i hi)).1
      · exact h.visible i
    · simpa only [mergeBits_bit, q31, q30, Bool.false_eq_true, if_false] using h.active
    · rw [mergeBits_bit, q31, if_neg Bool.false_ne_true] at hrel
      rw [mergeBits_bit]
      split
      · exact hqueue i
      · exact h.released hrel i
  | acquire =>
    rw [mergeBits_all]
    have d31 : Mask.defaultPattern.getLsbD 31 = true := by decide
    have set31 : (Mask.defaultPattern ||| s.queueBits).getLsbD 31 = true := by simp [d31]
    refine ⟨fun i hi => ?_, fun _ => set31, fun hrel => Bool.noConfusion (set31.symm.trans hrel)⟩
    rw [BitVec.getLsbD_or, Bool.or_eq_true] at hi
    rcases hi with hi | hi
    · exact defaultPattern_visible hi
    · exact (queue_visible (hqueue i hi)).1
  | clear =>
    rw [mergeBits_all]
    exact .zero
  | signals _ _ acquired settable =>
    have hset := and_not_eq_zero_iff.mp settable
    have keeps : ∀ {i}, i = 31 ∨ i = 30 → (Machine.mergeBits s.line n m).getLsbD i = s.line.getLsbD i := by
      intro i hi
      rw [mergeBits_bit, if_neg]
      intro hm
      obtain ⟨-, h31, h30⟩ := settable_visible (hset i hm)
      omega
    have set31 := hasBit_acquired_iff.mp acquired
    refine ⟨fun i => ?_, ?_, fun hrel => ?_⟩
    · rw [mergeBits_bit]
      split
      · next hm => exact fun _ => (settable_visible (hset i hm)).1
      · exact h.visible i
    · rw [keeps (.inl rfl)]
      exact fun _ => set31
    · rw [keeps (.inl rfl), set31] at hrel
      exact absurd hrel Bool.noConfusion
  | active _ acquired =>
    have set31 : (Machine.mergeBits s.line n Bit.active).getLsbD 31 = true := by
      rw [mergeBits_bit, active_bit, if_neg (by decide)]
      exact hasBit_acquired_iff.mp acquired
    refine ⟨fun i => ?_, fun _ => set31, fun hrel => Bool.noConfusion (set31.symm.trans hrel)⟩
    rw [mergeBits_bit]
    split
    · next hm =>
      rw [active_bit, decide_eq_true_eq] at hm
      subst hm
      exact fun _ => by decide
    · exact h.visible i

/-- The mask SETSTATE accepts has settable bits alone, and so has what flow control leaves of it (R158). -/
theorem writableMask_settable {s : State} {b : Word}
    (h : b &&& (Bit.acquired ||| Bit.active ||| ~~~Mask.settable) = 0#32) :
    s.writableMask b &&& ~~~Mask.settable = 0#32 := by
  rw [and_not_eq_zero_iff]
  intro i hi
  have hb : b.getLsbD i = true := by
    simp only [State.writableMask, BitVec.getLsbD_and, Bool.and_eq_true] at hi
    exact hi.1
  have := and_eq_zero_iff.mp h i hb
  simp only [BitVec.getLsbD_or, BitVec.getLsbD_not, BitVec.lt_of_getLsbD hb, Bool.or_eq_false_iff] at this
  simpa using this.2

end Sys2Proof.Machine
end

section
/-! PROOFS. The invariants of the parked waits (10_state.md R34, R45; 41_linestate.md R174): what each operation on slots and
on `State` does to them. -/

namespace Sys2Proof.Machine

/-! ### What a sleeping wait looks at -/

/-- Two words that differ in no bit of a mask agree under it. -/
theorem and_eq_of_xor_and {a b m : Word} (h : (a ^^^ b) &&& m = 0#32) : b &&& m = a &&& m := by
  ext i hi
  have hbit := congrArg (fun v => v.getLsbD i) h
  simp [hi] at hbit ⊢
  grind

theorem xor_and_congr {a b m : Word} (t : Word) (h : a &&& m = b &&& m) : (a ^^^ t) &&& m = (b ^^^ t) &&& m := by
  ext i hi
  have hbit := congrArg (fun v => v.getLsbD i) h
  simp [hi] at hbit ⊢
  grind

/-- A difference outside the interest of a wait is one outside its mask, and outside `ACTIVE` if it has the implicit wait. -/
theorem outside_interest {x : Wait} {d : Word} (h : d &&& x.interest = 0#32) :
    d &&& x.mask = 0#32 ∧ (x.auto = true → d &&& Bit.active = 0#32) := by
  simp only [Wait.interest, interestOf, and_eq_zero_iff, BitVec.getLsbD_or, Bool.or_eq_false_iff] at h ⊢
  refine ⟨fun i hi => (h i hi).1, fun hauto i hi => ?_⟩
  simpa [hauto] using (h i hi).2

/-- A wait's condition depends on the bits of its interest alone. -/
theorem Wait.unmet_congr {x : Wait} {old new : Word} (hok : x.ok) (h : (old ^^^ new) &&& x.interest = 0#32)
    (hun : x.unmet old) : x.unmet new := by
  obtain ⟨hmask, hactive⟩ := outside_interest h
  have hagree := and_eq_of_xor_and hmask
  obtain ⟨kind, target, mask, auto, awake, port⟩ := x
  cases kind with
  | acq =>
    obtain ⟨-, rfl, -⟩ := hok
    show new &&& Bit.acquired ≠ 0#32
    rw [hagree]
    exact hun
  | watch =>
    have htarget : (new ^^^ target) &&& mask = (old ^^^ target) &&& mask := xor_and_congr target hagree
    have hact : (auto = true ∧ ¬ hasBit new Bit.active) ↔ (auto = true ∧ ¬ hasBit old Bit.active) := by
      refine and_congr_right fun hauto => ?_
      rw [hasBit, hasBit, and_eq_of_xor_and (hactive hauto)]
    show watchTest new target mask auto = .unsatisfied
    unfold watchTest
    rw [htarget, if_congr hact rfl rfl]
    exact hun

/-- Putting a wait to sleep or waking it changes neither its fields by kind nor its condition. -/
theorem Wait.ok_awake {x : Wait} (b : Bool) : ({ x with awake := b } : Wait).ok ↔ x.ok := Iff.rfl

/-! ### The invariants of the waits together -/

/-- What is kept of the waits: `NWATCH` slots, each wait with the fields of its kind, `WatchMask` the union of the blocked
interests, no wake-up lost. -/
structure State.WaitInv (s : State) : Prop where
  slots : s.slotsOk
  waits : s.waitsOk
  watchMask : s.watchMaskOk
  noLostWakeup : s.noLostWakeup

/-- The invariants of the waits depend on the parameters, the slots, `WatchMask` and `State` alone. -/
theorem State.WaitInv.congr {s t : State} (h : s.WaitInv) (params : t.params = s.params) (slots : t.slots = s.slots)
    (watchMask : t.watchMask = s.watchMask) (line : t.line = s.line) : t.WaitInv where
  slots := by rw [State.slotsOk, params, slots]; exact h.slots
  waits := by rw [State.waitsOk, slots]; exact h.waits
  watchMask := by rw [State.watchMaskOk, slots, watchMask]; exact h.watchMask
  noLostWakeup := by rw [State.noLostWakeup, slots, line]; exact h.noLostWakeup

/-- A change of `State` wakes everyone or touches no watched bit, and so keeps `WatchMask` right (R150, R151). -/
theorem State.changeState_watchMaskOk {s : State} (h : s.watchMaskOk) (n m : Word) : (s.changeState n m).watchMaskOk := by
  unfold State.watchMaskOk
  rw [State.changeState_watchMask, State.changeState_slots]
  split
  · exact (blockedInterest_wake _).symm
  · exact h

/-- After a change of `State` each wait is one that was parked before, possibly woken. -/
theorem State.mem_changeState {s : State} {n m : Word} {x : Wait} (h : some x ∈ (s.changeState n m).slots) :
    some x ∈ s.slots ∧ ¬ s.wakes n m ∨ x.awake = true ∧ ∃ y, some y ∈ s.slots ∧ x = y.wake := by
  rw [State.changeState_slots] at h
  split at h
  · exact .inr (mem_map_wake h)
  · next hw => exact .inl ⟨h, hw⟩

/-- A difference that meets no watched bit meets no interest of a sleeping wait. -/
theorem State.sleeping_unaffected {s : State} (h : s.watchMaskOk) {x : Wait} (hx : some x ∈ s.slots)
    (hsleep : x.awake = false) {d : Word} (hd : d &&& s.watchMask = 0#32) : d &&& x.interest = 0#32 := by
  have hsub := and_not_eq_zero_iff.mp (interest_of_sleeping hx hsleep)
  rw [h] at hd
  rw [BitVec.and_comm, and_eq_zero_iff]
  intro i hi
  by_contra hdi
  exact Bool.noConfusion ((hsub i hi).symm.trans (and_eq_zero_iff.mp hd i (by simpa using hdi)))

/-- A change of `State` loses no wake-up: whoever stays asleep looks at none of the changed bits (R174 (a)). -/
theorem State.WaitInv.changeState {s : State} (h : s.WaitInv) (n m : Word) : (s.changeState n m).WaitInv where
  slots := by
    show (s.changeState n m).slots.length = (s.changeState n m).params.nwatch
    rw [State.changeState_slots_length, State.changeState_params]
    exact h.slots
  waits := by
    intro x hx
    rcases State.mem_changeState hx with ⟨hx, -⟩ | ⟨-, y, hy, rfl⟩
    · exact h.waits x hx
    · exact (Wait.ok_awake true).mpr (h.waits y hy)
  watchMask := State.changeState_watchMaskOk h.watchMask n m
  noLostWakeup := by
    intro x hx hsleep
    rcases State.mem_changeState hx with ⟨hx, hw⟩ | ⟨hawake, -⟩
    · rw [State.changeState_line]
      exact Wait.unmet_congr (h.waits x hx)
        (State.sleeping_unaffected h.watchMask hx hsleep (by simpa [State.wakes] using hw)) (h.noLostWakeup x hx hsleep)
    · exact Bool.noConfusion (hawake.symm.trans hsleep)

/-- Waking everyone leaves nobody asleep. -/
theorem State.wakeAll_watchMaskOk (s : State) : s.wakeAll.watchMaskOk := (blockedInterest_wake _).symm

theorem State.WaitInv.wakeAll {s : State} (hslots : s.slotsOk) (hwaits : s.waitsOk) : s.wakeAll.WaitInv where
  slots := by
    show s.wakeAll.slots.length = s.wakeAll.params.nwatch
    simpa using hslots
  waits := by
    intro x hx
    obtain ⟨-, y, hy, rfl⟩ := mem_map_wake hx
    exact (Wait.ok_awake true).mpr (hwaits y hy)
  watchMask := s.wakeAll_watchMaskOk
  noLostWakeup := by
    intro x hx hsleep
    exact Bool.noConfusion ((mem_map_wake hx).1.symm.trans hsleep)

/-- Replacing a slot keeps the number of slots. -/
theorem State.setSlot_slotsOk {s : State} (h : s.slotsOk) (w : Nat) (o : Option Wait) : (s.setSlot w o).slotsOk := by
  show (s.slots.set w o).length = s.params.nwatch
  rw [List.length_set]
  exact h

theorem State.free_waitsOk {s : State} (h : s.waitsOk) (w : Nat) : (s.setSlot w none).waitsOk := fun x hx =>
  (mem_set_slot hx).elim (fun e => by cases e) (h x)

/-- Freeing the slot of a wait that is awake. -/
theorem State.free_watchMaskOk {s : State} (h : s.watchMaskOk) {w : Nat} {x : Wait} (hx : s.slot w = some x)
    (hawake : x.awake = true) : (s.setSlot w none).watchMaskOk := by
  show s.watchMask = blockedInterest (s.slots.set w none)
  rw [blockedInterest_set_none]
  · exact h
  · intro y hy
    rw [State.slot_eq_some hx, Option.some.injEq, Option.some.injEq] at hy
    exact hy ▸ hawake

theorem State.WaitInv.free {s : State} (h : s.WaitInv) {w : Nat} {x : Wait} (hx : s.slot w = some x)
    (hawake : x.awake = true) : (s.setSlot w none).WaitInv where
  slots := State.setSlot_slotsOk h.slots w none
  waits := State.free_waitsOk h.waits w
  watchMask := State.free_watchMaskOk h.watchMask hx hawake
  noLostWakeup := fun y hy => (mem_set_slot hy).elim (fun e => by cases e) (h.noLostWakeup y)

/-! ### A wait put to sleep -/

/-- A wait put to sleep in a slot where nobody sleeps, with its interest watched: what `park` and `repark` do. -/
theorem State.sleep_watchMaskOk {s : State} (h : s.watchMaskOk) {w : Nat} (hw : w < s.slots.length) {x : Wait}
    (hx : x.awake = false) (hold : ∀ y, s.slots[w]? = some (some y) → y.awake = true) :
    s.watchMask ||| x.interest = blockedInterest (s.slots.set w (some x)) := by
  rw [blockedInterest_set_sleeping hw hx hold, h]

/-- A slot that holds a wait exists, and the wait there is that one. -/
theorem State.slot_lt {s : State} {w : Nat} {x : Wait} (h : s.slot w = some x) : w < s.slots.length :=
  List.getElem?_eq_some_iff.mp (State.slot_eq_some h) |>.1

theorem State.park_watchMaskOk {s : State} (hslots : s.slotsOk) (h : s.watchMaskOk) {tag : Tag} {x : Wait}
    (hpark : s.canPark tag) (hsleep : x.awake = false) : (s.park tag x).watchMaskOk := by
  have hw : tag.toNat < s.slots.length := hslots ▸ hpark.1
  refine State.sleep_watchMaskOk h hw hsleep fun y hy => ?_
  rw [State.slot_eq_none hw hpark.2] at hy
  cases hy

theorem State.repark_watchMaskOk {s : State} (h : s.watchMaskOk) {w : Nat} {x : Wait} (hx : s.slot w = some x)
    (hawake : x.awake = true) : (s.repark w x).watchMaskOk := by
  refine State.sleep_watchMaskOk (x := { x with awake := false }) h (State.slot_lt hx) rfl fun y hy => ?_
  rw [State.slot_eq_some hx, Option.some.injEq, Option.some.injEq] at hy
  exact hy ▸ hawake

theorem State.WaitInv.park {s : State} (h : s.WaitInv) {tag : Tag} {x : Wait} (hpark : s.canPark tag)
    (hsleep : x.awake = false) (hok : x.ok) (hunmet : x.unmet s.line) : (s.park tag x).WaitInv where
  slots := State.setSlot_slotsOk h.slots tag.toNat (some x)
  waits := fun y hy => (mem_set_slot hy).elim (fun e => by cases e; exact hok) (h.waits y)
  watchMask := State.park_watchMaskOk h.slots h.watchMask hpark hsleep
  noLostWakeup := fun y hy => (mem_set_slot hy).elim (fun e _ => by cases e; exact hunmet) (h.noLostWakeup y)

theorem State.WaitInv.repark {s : State} (h : s.WaitInv) {w : Nat} {x : Wait} (hx : s.slot w = some x)
    (hawake : x.awake = true) (hunmet : x.unmet s.line) : (s.repark w x).WaitInv where
  slots := State.setSlot_slotsOk h.slots w (some { x with awake := false })
  waits := fun y hy => (mem_set_slot hy).elim
    (fun e => by cases e; exact (Wait.ok_awake false).mpr (h.waits x (mem_of_slot hx))) (h.waits y)
  watchMask := State.repark_watchMaskOk h.watchMask hx hawake
  noLostWakeup := fun y hy => (mem_set_slot hy).elim (fun e _ => by cases e; exact hunmet) (h.noLostWakeup y)

end Sys2Proof.Machine
end

section
/-! PROOFS. What can become of one ring buffer in one step, said once: its registers that each operation writes
(10_state.md R22, R23) and its invariants (R25, R27), which every operation keeps. -/

namespace Sys2Proof.Machine

/-! ### Which registers the moves of bytes leave alone -/

/-- Pushing a byte writes storage, the write cursor and the count. -/
theorem RingBuffer.pushByte_frame {b c : RingBuffer} {x : Byte} (h : b.pushByte x = some c) :
    c = { b with mem := c.mem, nextChar := c.nextChar, inQueue := c.inQueue } := by
  unfold RingBuffer.pushByte RingBuffer.memWrite at h
  split at h
  · next e he =>
    split at he
    · cases he
      cases h
      rfl
    · cases he
  · cases h

theorem RingBuffer.pushBytes_frame (xs : List Byte) {b c : RingBuffer} (h : b.pushBytes xs = some c) :
    c = { b with mem := c.mem, nextChar := c.nextChar, inQueue := c.inQueue } := by
  induction xs generalizing b with
  | nil => cases h; rfl
  | cons x xs ih =>
    unfold RingBuffer.pushBytes at h
    split at h
    · next e he =>
      have := ih h
      rw [RingBuffer.pushByte_frame he] at this
      exact this
    · cases h

theorem RingBuffer.pushBulk_frame {b c : RingBuffer} {xs : List Byte} {n : Nat} (h : b.pushBulk xs = some (n, c)) :
    c = { b with mem := c.mem, nextChar := c.nextChar, inQueue := c.inQueue } := by
  unfold RingBuffer.pushBulk at h
  split at h
  · next he =>
    cases h
    exact RingBuffer.pushBytes_frame _ he
  · cases h

/-- Popping a byte writes the read cursor and the count. -/
theorem RingBuffer.popByte_frame {b c : RingBuffer} {x : Byte} (h : b.popByte = some (x, c)) :
    c = { b with lastChar := c.lastChar, inQueue := c.inQueue } := by
  unfold RingBuffer.popByte at h
  split at h
  · cases h
    rfl
  · cases h

theorem RingBuffer.popBytes_frame (n : Nat) {b c : RingBuffer} {xs : List Byte} (h : b.popBytes n = some (xs, c)) :
    c = { b with lastChar := c.lastChar, inQueue := c.inQueue } := by
  induction n generalizing b xs with
  | zero => cases h; rfl
  | succ n ih =>
    unfold RingBuffer.popBytes at h
    split at h
    · next e he =>
      split at h
      · next hrec =>
        cases h
        have := ih hrec
        rw [RingBuffer.popByte_frame he] at this
        exact this
      · cases h
    · cases h

/-- RB_POP writes the read cursor, the count and the exposure. -/
theorem RingBuffer.pop_frame {b c : RingBuffer} {x : Byte} (h : b.pop = some (x, c)) :
    c = { b with lastChar := c.lastChar, inQueue := c.inQueue, exposed := c.exposed } := by
  unfold RingBuffer.pop at h
  split at h
  · next he =>
    have := RingBuffer.popByte_frame he
    cases h
    rw [this]
  · cases h

theorem RingBuffer.popBulk_frame {b c : RingBuffer} {n : Nat} {xs : List Byte} (h : b.popBulk n = some (xs, c)) :
    c = { b with lastChar := c.lastChar, inQueue := c.inQueue, exposed := c.exposed } := by
  unfold RingBuffer.popBulk at h
  simp only at h
  split at h
  · next he =>
    have := RingBuffer.popBytes_frame _ he
    cases h
    split
    all_goals rw [this]
  · cases h

/-- RB_BEGINDR writes the exposure alone. -/
theorem RingBuffer.expose_frame {b c : RingBuffer} {n : Nat} {xs : List Byte} (h : b.expose n = some (xs, c)) :
    c = { b with exposed := b.windowLength n } := by
  unfold RingBuffer.expose at h
  split at h
  · cases h
    rfl
  · cases h

/-- RB_ENDDR writes the read cursor, the count and the exposure. -/
theorem RingBuffer.consume_frame (b : RingBuffer) (n : Nat) :
    b.consume n = { b with
      lastChar := (b.consume n).lastChar, inQueue := (b.consume n).inQueue, exposed := (b.consume n).exposed } := by
  unfold RingBuffer.consume
  split <;> rfl

/-! ### One buffer, one step -/

/-- What an operation of opcode `o` can make of a buffer with `depth` bytes of physical storage. The copy steps of the
transfers make the same of it as RB_PUSHBULK and RB_POPBULK (44_transfer_watermark.md R263, R266). -/
inductive RingChange (o : Byte) (depth : Nat) (b : RingBuffer) : RingBuffer → Prop
  | same : RingChange o depth b b
  | opened (n : Nat) (op : o = Opc.rbInit) (pos : 1 ≤ n) (le : n ≤ depth) : RingChange o depth b (b.openAt n)
  | acquired (op : o = Opc.acquire) : RingChange o depth b (b.openAt depth)
  | pushed (x : Byte) (c : RingBuffer) (op : o = Opc.rbPush) (room : b.inQueue ≠ b.size) (h : b.push x = some c) :
      RingChange o depth b c
  | popped (x : Byte) (c : RingBuffer) (op : o = Opc.rbPop) (filled : b.inQueue ≠ 0) (h : b.pop = some (x, c)) :
      RingChange o depth b c
  | pushedBulk (xs : List Byte) (n : Nat) (c : RingBuffer) (op : o = Opc.rbPushbulk) (h : b.pushBulk xs = some (n, c)) :
      RingChange o depth b c
  | poppedBulk (n : Nat) (xs : List Byte) (c : RingBuffer) (op : o = Opc.rbPopbulk) (h : b.popBulk n = some (xs, c)) :
      RingChange o depth b c
  | exposed (n : Nat) (xs : List Byte) (c : RingBuffer) (op : o = Opc.rbBegindr) (h : b.expose n = some (xs, c)) :
      RingChange o depth b c
  | consumed (n : Nat) (op : o = Opc.rbEnddr) (le : n ≤ b.exposed) : RingChange o depth b (b.consume n)
  | closed (op : o = Opc.rbClose) : RingChange o depth b b.close
  | cleared (op : o = Opc.lreset) : RingChange o depth b b.clear

variable {o : Byte} {depth : Nat} {b c : RingBuffer}

/-- No operation breaks the invariants of a buffer and of its storage (R25, R27). -/
theorem RingChange.ok (h : RingChange o depth b c) (hd : 1 ≤ depth) (hb : b.ok depth) (hm : b.mem.ok depth) :
    c.ok depth ∧ c.mem.ok depth := by
  cases h with
  | same => exact ⟨hb, hm⟩
  | opened n _ pos le => exact ⟨(RingBuffer.openAt_ok pos le).1, hm⟩
  | acquired => exact ⟨(RingBuffer.openAt_ok hd le_rfl).1, hm⟩
  | pushed x _ _ room h =>
    obtain ⟨e, he, hok, hmem, -⟩ := RingBuffer.push_spec hb hm room x
    cases h.symm.trans he
    exact ⟨hok, hmem⟩
  | popped x _ _ filled h =>
    obtain ⟨y, e, he, hok, -, hframe, -⟩ := RingBuffer.pop_spec hb filled
    cases h.symm.trans he
    refine ⟨hok, ?_⟩
    rw [hframe]
    exact hm
  | pushedBulk xs n _ _ h =>
    obtain ⟨e, he, hok, hmem, -⟩ := RingBuffer.pushBulk_spec hb hm xs
    cases h.symm.trans he
    exact ⟨hok, hmem⟩
  | poppedBulk n xs _ _ h =>
    obtain ⟨e, he, hok, hframe, -⟩ := RingBuffer.popBulk_spec hb n
    cases h.symm.trans he
    refine ⟨hok, ?_⟩
    rw [hframe]
    exact hm
  | exposed n xs _ _ h =>
    rw [RingBuffer.expose_frame h]
    exact ⟨(RingBuffer.expose_spec hb n).2, hm⟩
  | consumed n _ le =>
    refine ⟨(RingBuffer.consume_spec hb le).1, ?_⟩
    rw [RingBuffer.consume_frame]
    exact hm
  | closed => exact ⟨(RingBuffer.close_ok b depth).1, hm⟩
  | cleared => exact ⟨(RingBuffer.clear_ok hb).1, hm⟩

/-- `Size` and `Valid` change only where a buffer is opened or closed (R23). -/
theorem RingChange.size_valid (h : RingChange o depth b c) :
    (c.size = b.size ∧ c.valid = b.valid) ∨ o = 0x00#8 ∨ o = 0x0B#8 ∨ o = 0x10#8 := by
  cases h with
  | same => exact .inl ⟨rfl, rfl⟩
  | opened _ op => exact .inr (.inl op)
  | acquired op => exact .inr (.inr (.inr op))
  | pushed _ _ _ _ h => rw [RingBuffer.pushByte_frame h]; exact .inl ⟨rfl, rfl⟩
  | popped _ _ _ _ h => rw [RingBuffer.pop_frame h]; exact .inl ⟨rfl, rfl⟩
  | pushedBulk _ _ _ _ h => rw [RingBuffer.pushBulk_frame h]; exact .inl ⟨rfl, rfl⟩
  | poppedBulk _ _ _ _ h => rw [RingBuffer.popBulk_frame h]; exact .inl ⟨rfl, rfl⟩
  | exposed _ _ _ _ h => rw [RingBuffer.expose_frame h]; exact .inl ⟨rfl, rfl⟩
  | consumed => rw [RingBuffer.consume_frame]; exact .inl ⟨rfl, rfl⟩
  | closed op => exact .inr (.inr (.inl op))
  | cleared => exact .inl ⟨rfl, rfl⟩

/-- `LastChar` changes only where a buffer is opened, closed or emptied, and where bytes leave (R23). -/
theorem RingChange.lastChar (h : RingChange o depth b c) :
    c.lastChar = b.lastChar ∨ o ∈ [0x00#8, 0x02#8, 0x04#8, 0x0A#8, 0x0B#8, 0x10#8, 0x12#8] := by
  cases h with
  | same => exact .inl rfl
  | pushed _ _ _ _ h => rw [RingBuffer.pushByte_frame h]; exact .inl rfl
  | pushedBulk _ _ _ _ h => rw [RingBuffer.pushBulk_frame h]; exact .inl rfl
  | exposed _ _ _ _ h => rw [RingBuffer.expose_frame h]; exact .inl rfl
  | opened _ op | acquired op | popped _ _ op | poppedBulk _ _ _ op | consumed _ op | closed op | cleared op =>
    subst op
    exact .inr (by decide)

/-- `NextChar` changes only where a buffer is opened, closed or emptied, and where bytes come in (R23). -/
theorem RingChange.nextChar (h : RingChange o depth b c) :
    c.nextChar = b.nextChar ∨ o ∈ [0x00#8, 0x01#8, 0x03#8, 0x0B#8, 0x10#8, 0x12#8] := by
  cases h with
  | same => exact .inl rfl
  | popped _ _ _ _ h => rw [RingBuffer.pop_frame h]; exact .inl rfl
  | poppedBulk _ _ _ _ h => rw [RingBuffer.popBulk_frame h]; exact .inl rfl
  | exposed _ _ _ _ h => rw [RingBuffer.expose_frame h]; exact .inl rfl
  | consumed => rw [RingBuffer.consume_frame]; exact .inl rfl
  | opened _ op | acquired op | pushed _ _ op | pushedBulk _ _ _ op | closed op | cleared op =>
    subst op
    exact .inr (by decide)

/-- Storage changes only where bytes come in (R22). -/
theorem RingChange.mem (h : RingChange o depth b c) : c.mem = b.mem ∨ o = 0x01#8 ∨ o = 0x03#8 := by
  cases h with
  | pushed _ _ op => exact .inr (.inl op)
  | pushedBulk _ _ _ op => exact .inr (.inr op)
  | popped _ _ _ _ h => rw [RingBuffer.pop_frame h]; exact .inl rfl
  | poppedBulk _ _ _ _ h => rw [RingBuffer.popBulk_frame h]; exact .inl rfl
  | exposed _ _ _ _ h => rw [RingBuffer.expose_frame h]; exact .inl rfl
  | consumed => rw [RingBuffer.consume_frame]; exact .inl rfl
  | same | opened | acquired | closed | cleared => exact .inl rfl

end Sys2Proof.Machine
end

section
/-! PROOFS. The updates that every step of the machine is made of, and what each does to the registers and to the
invariants of a good state. A step other than a reset or a presented command is a run of updates; an invariant that each
update keeps is kept by every step. -/

namespace Sys2Proof.Machine

/-! ### The bank (R36, R37) -/

/-- The defaults of the bank are legal for every legal choice of the parameters. -/
theorem LinkBank.defaults_ok {p : Params} (h : p.legal) : LinkBank.defaults.ok p := by
  obtain ⟨-, -, -, hmin, hmax, -⟩ := h
  have hbaud : LinkBank.defaults.baudRate.toNat = 9600 := rfl
  refine ⟨⟨?_, ?_⟩, by decide, by decide, by decide, by decide, by decide, by decide⟩
  · omega
  · omega

/-! ### Updates -/

/-- One piece of a step. -/
inductive Update (s : State) : State → Prop
  /-- a response or a frame sent, a transfer record written -/
  | quiet (xh xw : Xfer) (oh ow : List Response) (on : List Notification) :
      Update s { s with xferH := xh, xferW := xw, outH := oh, outW := ow, outN := on }
  /-- a presented command taken by its port -/
  | take (p : Port) (c : Command) (rest : List Command) (h : s.pend p = c :: rest) : Update s (s.taking p rest)
  | ring (d : Dir) (o : Byte) (b : RingBuffer) (h : RingChange o (s.depth d) (s.rb d) b) : Update s (s.setRb d b)
  | bank (k : LinkBank) (h : s.params.legal → s.bank.ok s.params → k.ok s.params) : Update s (s.setBank k)
  /-- the part of an acquisition that does not touch `State` (R153) -/
  | rebuild : Update s s.rebuild
  | line (n m : Word) (h : LineWrite s n m) : Update s (s.changeState n m)
  | park (tag : Tag) (x : Wait) (slot : s.canPark tag) (running : s.terminating = false) (sleeps : x.awake = false)
      (ok : x.ok) (unmet : x.unmet s.line) : Update s (s.park tag x)
  /-- the slot of a woken wait freed -/
  | free (w : Nat) (x : Wait) (slot : s.slot w = some x) (awake : x.awake = true) : Update s (s.setSlot w none)
  | repark (w : Nat) (x : Wait) (slot : s.slot w = some x) (awake : x.awake = true) (unmet : x.unmet s.line) :
      Update s (s.repark w x)
  /-- a wait aborted, and everyone else woken (R168) -/
  | abort (w : Nat) : Update s (s.setSlot w none).wakeAll
  /-- every wait dropped for good (R170) -/
  | terminate :
      Update s { s with terminating := true, slots := List.replicate s.slots.length none, watchMask := 0#32 }

namespace Update

variable {s t : State}

/-! ### What an update leaves alone -/

theorem params (h : Update s t) : t.params = s.params := by
  cases h <;> simp

theorem schedule (h : Update s t) : t.schedule = s.schedule := by
  cases h <;> simp

/-- Commands that wait are taken and never added. -/
theorem pend_subset (h : Update s t) (p : Port) : t.pend p ⊆ s.pend p := by
  have same : t.pendH = s.pendH → t.pendW = s.pendW → t.pend p ⊆ s.pend p := by
    intro hH hW
    have hp : t.pend p = s.pend p := by cases p <;> assumption
    exact fun c hc => hp ▸ hc
  cases h with
  | take q c rest h =>
    intro e he
    cases p <;> cases q
    · exact h ▸ List.mem_cons_of_mem c he
    · exact he
    · exact he
    · exact h ▸ List.mem_cons_of_mem c he
  | _ => exact same (by simp) (by simp)

/-- Nothing but a reset clears `Terminating`. -/
theorem terminating (h : Update s t) : s.terminating = true → t.terminating = true := by
  cases h <;> simp

/-! ### What an update keeps -/

/-- The buffers keep their invariants (R25, R27). -/
theorem buffersOk (h : Update s t) (hp : s.params.legal) (hb : s.buffersOk) : t.buffersOk := by
  obtain ⟨hrx, htx, hmrx, hmtx⟩ := hb
  cases h with
  | ring d o b h =>
    cases d with
    | rx =>
      obtain ⟨hok, hmem⟩ := h.ok hp.1.1 hrx hmrx
      exact ⟨hok, htx, hmem, hmtx⟩
    | tx =>
      obtain ⟨hok, hmem⟩ := h.ok hp.2.1.1 htx hmtx
      exact ⟨hrx, hok, hmrx, hmem⟩
  | rebuild =>
    exact ⟨(RingBuffer.openAt_ok hp.1.1 le_rfl).1, (RingBuffer.openAt_ok hp.2.1.1 le_rfl).1, hmrx, hmtx⟩
  | _ => simpa [State.buffersOk] using ⟨hrx, htx, hmrx, hmtx⟩

/-- `State` keeps its invariants (R32). -/
theorem lineWord (h : Update s t) (hl : LineWord s.line) : LineWord t.line := by
  cases h with
  | line n m h =>
    rw [State.changeState_line]
    exact hl.mergeBits h
  | _ => simpa using hl

/-- `WatchMask` stays the union of the blocked interests (R34). -/
theorem watchMaskOk (h : Update s t) (hs : s.slotsOk) (hw : s.watchMaskOk) : t.slotsOk ∧ t.watchMaskOk := by
  have same : t.params = s.params → t.slots = s.slots → t.watchMask = s.watchMask → t.slotsOk ∧ t.watchMaskOk := by
    intro hp hslots hmask
    rw [State.slotsOk, State.watchMaskOk, hp, hslots, hmask]
    exact ⟨hs, hw⟩
  cases h with
  | line n m h =>
    refine ⟨?_, State.changeState_watchMaskOk hw n m⟩
    rw [State.slotsOk, State.changeState_slots_length, State.changeState_params]
    exact hs
  | park tag x slot _ sleeps =>
    exact ⟨State.setSlot_slotsOk hs tag.toNat (some x), State.park_watchMaskOk hs hw slot sleeps⟩
  | free w x slot awake => exact ⟨State.setSlot_slotsOk hs w none, State.free_watchMaskOk hw slot awake⟩
  | repark w x slot awake =>
    exact ⟨State.setSlot_slotsOk hs w (some { x with awake := false }), State.repark_watchMaskOk hw slot awake⟩
  | abort w =>
    have hfree := State.setSlot_slotsOk hs w none
    refine ⟨?_, State.wakeAll_watchMaskOk _⟩
    rw [State.slotsOk, State.wakeAll_slots, List.length_map]
    exact hfree
  | terminate => exact ⟨List.length_replicate.trans hs, (blockedInterest_free _).symm⟩
  | _ => exact same (by simp) (by simp) (by simp)

/-- The waits keep their invariants, and no wake-up is lost (R45, R174 (a)). -/
theorem waitInv (h : Update s t) (hw : s.WaitInv) : t.WaitInv := by
  cases h with
  | line n m => exact hw.changeState n m
  | park tag x slot _ sleeps ok unmet => exact hw.park slot sleeps ok unmet
  | free w x slot awake => exact hw.free slot awake
  | repark w x slot awake unmet => exact hw.repark slot awake unmet
  | abort w => exact .wakeAll (State.setSlot_slotsOk hw.slots w none) (State.free_waitsOk hw.waits w)
  | terminate =>
    have empty : ∀ x : Wait, some x ∉ List.replicate s.slots.length none := by simp
    exact ⟨List.length_replicate.trans hw.slots, fun x hx => absurd hx (empty x), (blockedInterest_free _).symm,
      fun x hx => absurd hx (empty x)⟩
  | _ => exact hw.congr (by simp) (by simp) (by simp) (by simp)

/-- No wait comes to be parked on a terminating line (R170). -/
theorem terminatedOk (h : Update s t) (ht : s.terminatedOk) : t.terminatedOk := by
  have same : t.terminating = s.terminating → (∀ x, some x ∈ t.slots → ∃ y, some y ∈ s.slots) → t.terminatedOk := by
    intro hterm hslots hstop x hx
    obtain ⟨y, hy⟩ := hslots x hx
    exact ht (hterm ▸ hstop) y hy
  cases h with
  | line n m =>
    refine same (by simp) fun x hx => ?_
    rcases State.mem_changeState hx with ⟨hx, -⟩ | ⟨-, y, hy, -⟩
    · exact ⟨x, hx⟩
    · exact ⟨y, hy⟩
  | park tag x _ running => exact fun hstop => Bool.noConfusion (running.symm.trans hstop)
  | free w x slot => exact same rfl fun _ _ => ⟨x, mem_of_slot slot⟩
  | repark w x slot => exact same rfl fun _ _ => ⟨x, mem_of_slot slot⟩
  | abort w =>
    refine same rfl fun x hx => ?_
    obtain ⟨-, y, hy, -⟩ := mem_map_wake hx
    exact (mem_set_slot hy).elim (fun e => by cases e) fun hy => ⟨y, hy⟩
  | terminate => exact fun _ x => by simp
  | _ => exact same (by simp) fun x hx => ⟨x, by simpa using hx⟩

/-- The bank stays legal (R37, R43, R44). -/
theorem bankOk (h : Update s t) (hp : s.params.legal) (hb : s.bank.ok s.params) : t.bank.ok t.params := by
  cases h with
  | bank k h => exact h hp hb
  | rebuild => exact LinkBank.defaults_ok hp
  | _ => simpa using hb

/-- The thresholds are zero or those of the physical depth (R28). -/
theorem wmOk (h : Update s t) (hrx : s.wmRx.ok s.params.depthRx) (htx : s.wmTx.ok s.params.depthTx) :
    t.wmRx.ok t.params.depthRx ∧ t.wmTx.ok t.params.depthTx := by
  cases h with
  | rebuild => exact ⟨.inr rfl, .inr rfl⟩
  | _ => simpa using ⟨hrx, htx⟩

/-! ### Updates that are answers -/

theorem send (s : State) (p : Port) (r : Response) : Update s (s.send p r) := by
  cases p
  · exact .quiet s.xferH s.xferW _ s.outW s.outN
  · exact .quiet s.xferH s.xferW s.outH _ s.outN

theorem respond (s : State) (r : Response) : Update s (s.respond r) := send s s.issuer r

theorem notify (s : State) (n : Notification) : Update s (s.notify n) := .quiet s.xferH s.xferW s.outH s.outW _

theorem setXfer (s : State) (p : Port) (x : Xfer) : Update s (s.setXfer p x) := by
  cases p
  · exact .quiet _ s.xferW s.outH s.outW s.outN
  · exact .quiet s.xferH _ s.outH s.outW s.outN

end Update

/-! ### Runs of updates -/

/-- A run of updates. -/
abbrev Updates : State → State → Prop := Relation.ReflTransGen Update

/-- What every update keeps, a run of updates keeps. -/
theorem Updates.keeps {P : State → Prop} (upd : ∀ {s t}, Update s t → P s → P t) {s t : State} (h : Updates s t)
    (hs : P s) : P t := by
  induction h with
  | refl => exact hs
  | tail _ last ih => exact upd last ih

theorem Update.updates {s t : State} (h : Update s t) : Updates s t := .single h

theorem Updates.acquisition (s : State) : Updates s s.acquisition :=
  Update.rebuild.updates.tail (.line _ _ .acquire)

theorem Update.fold (s : State) : Update s s.fold := .line _ _ .fold

end Sys2Proof.Machine
end

section
/-! PROOFS. What carrying out a command can do, with its guards: one case for each way in which the rules let an instruction
end, for all 66 instructions. The registers it writes and the updates it is made of follow from these cases. -/

namespace Sys2Proof.Machine

/-! ### Events (R190 to R211) -/

/-- What an accepted event makes of an acquired line. -/
inductive EventApplied (i : Instr) (s : State) : State → Prop
  /-- a register of the bank, or none, written with a legal value -/
  | register (k : LinkBank) (legal : s.bank.ok s.params → k.ok s.params)
      (special : k.specialChars = s.bank.specialChars ∨ i.sel = Kind.specialByte ∨ i.sel = Kind.validDataByte)
      (flow : k.flowRuntime = s.bank.flowRuntime ∧ k.rxProto = s.bank.rxProto ∧ k.txProto = s.bank.txProto) :
      EventApplied i s (s.setBank k)
  | activated (sel : i.sel = Kind.active) : EventApplied i s (s.linkDefaults.changeState Bit.active Bit.active)
  | deactivated : EventApplied i s (s.changeState 0#32 Bit.active)
  | lineBreak (n : Word) : EventApplied i s (s.changeState n Bit.brk)

/-- What carrying out instruction `i` can make of a state. -/
inductive Carried (i : Instr) (s : State) : State → Prop
  /-- a read, or an error (R293) -/
  | answered (r : Response) : Carried i s (s.respond r)
  /-- a ring-buffer operation (R120) -/
  | ring (d : Dir) (b : RingBuffer) (r : Response) (h : RingChange i.opc (s.depth d) (s.rb d) b) :
      Carried i s ((s.setRb d b).respond r)
  /-- a successful ACQUIRE (R152) -/
  | acquired (r : Response) (op : i.opc = Opc.acquire) : Carried i s (s.acquisition.respond r)
  /-- a successful RELEASE (R155) -/
  | released (r : Response) : Carried i s ((s.changeState 0#32 Mask.all).respond r)
  /-- LRESET (R156) -/
  | emptied (r : Response) (op : i.opc = Opc.lreset) :
      Carried i s ((((s.setRb .rx s.rx.clear).setRb .tx s.tx.clear).fold).respond r)
  /-- a successful SETSTATE (R158) -/
  | signals (n m : Word) (r : Response) (acquired : hasBit s.line Bit.acquired)
      (settable : m &&& ~~~Mask.settable = 0#32) : Carried i s ((s.changeState n m).respond r)
  /-- GETSTATE (R160) -/
  | folded (r : Response) : Carried i s (s.fold.respond r)
  /-- an ACQUIRE or a WATCHSTATE that waits (R152, R163) -/
  | parked (tag : Tag) (x : Wait) (slot : s.canPark tag) (running : s.terminating = false) (sleeps : x.awake = false)
      (ok : x.ok) (unmet : x.unmet s.line) : Carried i s (s.park tag x)
  /-- a successful CANCELWAIT (R168) -/
  | cancelled (w : Nat) (p : Port) (q r : Response) : Carried i s ((((s.setSlot w none).wakeAll).send p q).respond r)
  /-- TERMINATE (R170) -/
  | terminated (oh ow : List Response) (r : Response) (op : i.opc = Opc.terminate) :
      Carried i s (({ s with
        terminating := true, slots := List.replicate s.slots.length none, watchMask := 0#32, outH := oh, outW := ow
        } : State).respond r)
  /-- SNAPSHOT (R172) -/
  | snapshot (n : Notification) (r : Response) : Carried i s ((s.notify n).respond r)
  /-- a transfer accepted (R263, R266) -/
  | loaded (p : Port) (x : Xfer) : Carried i s (s.setXfer p x)
  /-- an event accepted (R190) -/
  | event (u : State) (n : Notification) (r : Response) (op : i.opc = Opc.exec) (acquired : hasBit s.line Bit.acquired)
      (applied : EventApplied i s u) : Carried i s ((u.notify n).respond r)

variable {i : Instr} {s t : State}

theorem Carried.of_respond {r : Response} (h : (.next (s.respond r) : Host.Outcome State Fault Refusal) = .next t) :
    Carried i s t := by
  cases h
  exact .answered r

/-! ### The ring-buffer operations -/

theorem runRbInit_carried {d : Dir} {tag : Tag} {a : Word} (h : runRbInit d tag a s = .next t) :
    Carried (.rbInit d tag a) s t := by
  unfold runRbInit at h
  split at h
  · exact .of_respond h
  · next hok =>
    cases h
    obtain ⟨hne, hle⟩ := not_or.mp hok
    have hpos : a.toNat ≠ 0 := fun h0 => hne (BitVec.eq_of_toNat_eq h0)
    exact .ring d _ _ (.opened a.toNat rfl (by omega) (by omega))

theorem runRbPush_carried {d : Dir} {tag : Tag} {a : Word} (h : runRbPush d tag a s = .next t) :
    Carried (.rbPush d tag a) s t := by
  unfold runRbPush at h
  split at h
  · exact .of_respond h
  · split at h
    · exact .of_respond h
    · next room =>
      split at h
      · next hpush =>
        cases h
        exact .ring d _ _ (.pushed _ _ rfl room hpush)
      · cases h

theorem runRbPop_carried {d : Dir} {tag : Tag} (h : runRbPop d tag s = .next t) : Carried (.rbPop d tag) s t := by
  unfold runRbPop at h
  split at h
  · exact .of_respond h
  · next filled =>
    split at h
    · next hpop =>
      cases h
      exact .ring d _ _ (.popped _ _ rfl filled hpop)
    · cases h

theorem runRbPushbulk_carried {d : Dir} {tag : Tag} {bytes : List Byte} (h : runRbPushbulk d tag bytes s = .next t) :
    Carried (.rbPushbulk d tag bytes) s t := by
  unfold runRbPushbulk at h
  split at h
  · next hpush =>
    cases h
    exact .ring d _ _ (.pushedBulk _ _ _ rfl hpush)
  · cases h

theorem runRbPopbulk_carried {d : Dir} {tag : Tag} {a : Word} (h : runRbPopbulk d tag a s = .next t) :
    Carried (.rbPopbulk d tag a) s t := by
  unfold runRbPopbulk at h
  split at h
  · next hpop =>
    cases h
    exact .ring d _ _ (.poppedBulk _ _ _ rfl hpop)
  · cases h

theorem runRbBegindr_carried {d : Dir} {tag : Tag} {a : Word} (h : runRbBegindr d tag a s = .next t) :
    Carried (.rbBegindr d tag a) s t := by
  unfold runRbBegindr at h
  split at h
  · next hexp =>
    cases h
    exact .ring d _ _ (.exposed _ _ _ rfl hexp)
  · cases h

theorem runRbEnddr_carried {d : Dir} {tag : Tag} {a : Word} (h : runRbEnddr d tag a s = .next t) :
    Carried (.rbEnddr d tag a) s t := by
  unfold runRbEnddr at h
  split at h
  · exact .of_respond h
  · next hle =>
    cases h
    exact .ring d _ _ (.consumed a.toNat rfl (Nat.le_of_not_lt hle))

theorem runRbClose_carried {d : Dir} {tag : Tag} (h : runRbClose d tag s = .next t) : Carried (.rbClose d tag) s t := by
  cases h
  exact .ring d _ _ (.closed rfl)

/-! ### The line-state operations -/

theorem runAcquire_carried {blocking : Bool} {tag : Tag} (h : runAcquire blocking tag s = .next t) :
    Carried (.acquire blocking tag) s t := by
  unfold runAcquire at h
  split at h
  · exact .of_respond h
  · next running =>
    split at h
    · cases h
      exact .acquired _ rfl
    · next held =>
      split at h
      · exact .of_respond h
      · split at h
        · exact .of_respond h
        · next slot =>
          cases h
          exact .parked tag _ (not_not.mp slot) (Bool.eq_false_iff.mpr running) rfl ⟨rfl, rfl, rfl⟩ (not_not.mp held)

theorem runRelease_carried {tag : Tag} (h : runRelease tag s = .next t) : Carried (.release tag) s t := by
  unfold runRelease at h
  split at h
  · exact .of_respond h
  · split at h
    · exact .of_respond h
    · cases h
      exact .released _

theorem runLreset_carried {tag : Tag} (h : runLreset tag s = .next t) : Carried (.lreset tag) s t := by
  cases h
  exact .emptied _ rfl

theorem runSetstate_carried {tag : Tag} {a b : Word} (h : runSetstate tag a b s = .next t) :
    Carried (.setstate tag a b) s t := by
  unfold runSetstate at h
  split at h
  · exact .of_respond h
  · next hmask =>
    split at h
    · exact .of_respond h
    · next acquired =>
      cases h
      exact .signals _ _ _ (not_not.mp acquired) (writableMask_settable (not_not.mp hmask))

theorem runGetstate_carried {tag : Tag} (h : runGetstate tag s = .next t) : Carried (.getstate tag) s t := by
  cases h
  exact .folded _

theorem runWatchstate_carried {tag : Tag} {a b : Word} (h : runWatchstate tag a b s = .next t) :
    Carried (.watchstate tag a b) s t := by
  unfold runWatchstate at h
  split at h
  · exact .of_respond h
  · next running =>
    split at h
    · exact .of_respond h
    · split at h
      · exact .of_respond h
      · exact .of_respond h
      · next hunmet =>
        split at h
        · exact .of_respond h
        · next slot =>
          cases h
          exact .parked tag _ (not_not.mp slot) (Bool.eq_false_iff.mpr running) rfl rfl hunmet

/-- A wait aborted and then everyone woken: the answer to the aborted command may as well be sent last. -/
theorem State.complete_wakeAll (s : State) (w : Nat) (x : Wait) (k : Status) (d0 : Word) :
    (s.complete w x k d0).wakeAll =
      ((s.setSlot w none).wakeAll).send x.port { status := k, opc := x.kind.opc, tag := BitVec.ofNat 8 w, d0 := d0 } := by
  unfold State.complete
  cases x.port <;> rfl

theorem runCancelwait_carried {tag : Tag} (h : runCancelwait tag s = .next t) : Carried (.cancelwait tag) s t := by
  unfold runCancelwait at h
  split at h
  · exact .of_respond h
  · split at h
    · exact .of_respond h
    · cases h
      rw [State.complete_wakeAll]
      exact .cancelled _ _ _ _

/-- Completing every slot from `w` on frees every slot from `w` on. -/
theorem State.completeOffline_slots (xs : List (Option Wait)) (s : State) (done : List (Option Wait))
    (h : s.slots = done ++ xs) :
    (s.completeOffline done.length xs).slots = done ++ List.replicate xs.length none := by
  induction xs generalizing s done with
  | nil => simpa [State.completeOffline] using h
  | cons o xs ih =>
    have hnext : ∀ u : State, u.slots = (done ++ [none]) ++ xs →
        (u.completeOffline (done.length + 1) xs).slots = done ++ List.replicate (xs.length + 1) none := by
      intro u hu
      have := ih u (done ++ [none]) hu
      rw [List.length_append, List.length_singleton] at this
      rw [this, List.replicate_succ]
      simp
    cases o with
    | none => exact hnext s (by simpa using h)
    | some x =>
      refine hnext (s.complete done.length x .offline 0#32) ?_
      rw [State.complete_slots, h]
      simp

/-- The state TERMINATE leaves, before its own answer (R170). -/
def State.terminated (s : State) : State :=
  { ({ s with terminating := true } : State).completeOffline 0 s.slots with watchMask := 0#32 }

theorem runTerminate_eq (tag : Tag) (s : State) :
    runTerminate tag s = .next (s.terminated.respond { opc := Opc.terminate, tag := tag }) := rfl

/-- TERMINATE sets `Terminating`, frees every slot, clears `WatchMask` and sends answers. -/
theorem State.terminated_eq (s : State) : s.terminated =
    { s with
      terminating := true, slots := List.replicate s.slots.length none, watchMask := 0#32,
      outH := s.terminated.outH, outW := s.terminated.outW } := by
  have hslots := State.completeOffline_slots s.slots { s with terminating := true } [] rfl
  rw [List.length_nil, List.nil_append] at hslots
  unfold State.terminated
  rw [State.completeOffline_eq, hslots]

theorem runTerminate_carried {tag : Tag} (h : runTerminate tag s = .next t) : Carried (.terminate tag) s t := by
  rw [runTerminate_eq, State.terminated_eq] at h
  cases h
  exact .terminated _ _ _ rfl

/-! ### The transfers -/

theorem runDeqRx_carried {tag : Tag} {a b : Word} (h : runDeqRx tag a b s = .next t) : Carried (.deqRx tag a b) s t := by
  unfold runDeqRx at h
  split at h
  · exact .of_respond h
  · split at h
    · exact .of_respond h
    · cases h
      exact .loaded _ _

/-! ### The events -/

/-- What holds of an event's application where it is accepted holds of the event. -/
theorem Carried.of_event {tag : Tag} {valid : Prop} [Decidable valid] {u : State}
    (h : (.next (s.configEvent tag valid u) : Host.Outcome State Fault Refusal) = .next t) (op : i.opc = Opc.exec)
    (applied : valid → EventApplied i s u) : Carried i s t := by
  unfold State.configEvent at h
  split at h
  · exact .of_respond h
  · next acquired =>
    split at h
    · exact .of_respond h
    · next hv =>
      cases h
      exact .event u _ _ op (not_not.mp acquired) (applied (not_not.mp hv))

/-- An event that leaves the special-character table and the flow-control runtime alone. -/
theorem EventApplied.plain {k : LinkBank} (legal : s.bank.ok s.params → k.ok s.params)
    (special : k.specialChars = s.bank.specialChars)
    (flow : k.flowRuntime = s.bank.flowRuntime ∧ k.rxProto = s.bank.rxProto ∧ k.txProto = s.bank.txProto) :
    EventApplied i s (s.setBank k) := .register k legal (.inl special) flow

/-- An event that writes nothing. -/
theorem EventApplied.nothing : EventApplied i s s := .plain (k := s.bank) id rfl ⟨rfl, rfl, rfl⟩

/-- The low byte of a word that fits in a byte. -/
theorem byteOf_toNat {a : Word} (h : a.toNat < 256) : (byteOf a).toNat = a.toNat := by
  rw [byteOf, BitVec.toNat_setWidth]
  exact Nat.mod_eq_of_lt h

theorem byteOf_le {a : Word} {n : Nat} (hn : n < 256) (h : a ≤ BitVec.ofNat 32 n) : byteOf a ≤ BitVec.ofNat 8 n := by
  rw [BitVec.le_def, BitVec.toNat_ofNat, Nat.mod_eq_of_lt (by omega)] at h
  rw [BitVec.le_def, byteOf_toNat (by omega), BitVec.toNat_ofNat, Nat.mod_eq_of_lt hn]
  exact h

theorem le_byteOf {a : Word} {m n : Nat} (hn : n < 256) (hlo : BitVec.ofNat 32 m ≤ a) (hhi : a ≤ BitVec.ofNat 32 n) :
    BitVec.ofNat 8 m ≤ byteOf a := by
  rw [BitVec.le_def, BitVec.toNat_ofNat] at hlo hhi
  rw [BitVec.le_def, byteOf_toNat (by omega), BitVec.toNat_ofNat]
  omega

theorem setActive_applied (tag : Tag) (a : Word) : EventApplied (.execEvActive tag a) s (s.setActive (flagOf a)) := by
  unfold State.setActive
  split
  · split
    · exact .nothing
    · exact .activated rfl
  · exact .deactivated

/-- What carrying out an event can do. -/
theorem exec_event_carried (op : i.opc = Opc.exec) (h : exec i s = .next t) : Carried i s t := by
  cases i with
  | execEvActive tag a => exact .of_event h rfl fun _ => setActive_applied tag a
  | execEvDataRate tag a =>
    refine .of_event h rfl fun hv => .plain (fun hk => ?_) rfl ⟨rfl, rfl, rfl⟩
    exact ⟨hv, hk.2⟩
  | execEvDataSize tag a =>
    refine .of_event h rfl fun hv => .plain (fun hk => ?_) rfl ⟨rfl, rfl, rfl⟩
    exact ⟨hk.1, ⟨le_byteOf (by decide) hv.1 hv.2, byteOf_le (by decide) hv.2⟩, hk.2.2⟩
  | execEvStopBits tag a =>
    refine .of_event h rfl fun hv => .plain (fun hk => ?_) rfl ⟨rfl, rfl, rfl⟩
    obtain ⟨hbaud, hchar, -, hrest⟩ := hk
    exact ⟨hbaud, hchar, byteOf_le (by decide) hv, hrest⟩
  | execEvTxParity tag a =>
    refine .of_event h rfl fun hv => .plain (fun hk => ?_) rfl ⟨rfl, rfl, rfl⟩
    obtain ⟨hbaud, hchar, hstop, -, hrest⟩ := hk
    exact ⟨hbaud, hchar, hstop, ⟨le_byteOf (by decide) hv.1 hv.2, byteOf_le (by decide) hv.2⟩, hrest⟩
  | execEvRxParity tag a =>
    refine .of_event h rfl fun hv => .plain (fun hk => ?_) rfl ⟨rfl, rfl, rfl⟩
    obtain ⟨hbaud, hchar, hstop, htx, -, hrest⟩ := hk
    refine ⟨hbaud, hchar, hstop, htx, ?_, hrest⟩
    rcases hv with rfl | rfl
    · exact .inl rfl
    · exact .inr rfl
  | execEvFlowControl tag a =>
    refine .of_event h rfl fun hv => .plain (fun hk => ?_) rfl ⟨rfl, rfl, rfl⟩
    obtain ⟨hbaud, hchar, hstop, htx, hrx, -, hflow⟩ := hk
    exact ⟨hbaud, hchar, hstop, htx, hrx, hv, hflow⟩
  | execEvSpecialByte tag a => exact .of_event h rfl fun _ => .register _ id (.inr (.inl rfl)) ⟨rfl, rfl, rfl⟩
  | execEvValidDataByte tag a => exact .of_event h rfl fun _ => .register _ id (.inr (.inr rfl)) ⟨rfl, rfl, rfl⟩
  | execEvXonByte tag a | execEvXoffByte tag a | execEvMinLatency tag a | execEvDataLatency tag a
  | execEvCharLatency tag a => exact .of_event h rfl fun _ => .plain id rfl ⟨rfl, rfl, rfl⟩
  | execEvLineBreak tag a => exact .of_event h rfl fun _ => .lineBreak _
  | execEvRxqSize tag a | execEvTxqSize tag a | execEvRxqHighWater tag a | execEvRxqLowWater tag a
  | execEvTxqHighWater tag a | execEvTxqLowWater tag a => exact .of_event h rfl fun _ => .nothing
  | _ => exact absurd (beq_iff_eq.mpr op) Bool.false_ne_true

/-! ### Every instruction -/

/-- What carrying out an instruction can do. -/
theorem exec_carried (h : exec i s = .next t) : Carried i s t := by
  by_cases op : i.opc = Opc.exec
  · exact exec_event_carried op h
  cases i with
  | rbInit => exact runRbInit_carried h
  | rbPush => exact runRbPush_carried h
  | rbPop => exact runRbPop_carried h
  | rbPushbulk => exact runRbPushbulk_carried h
  | rbPopbulk => exact runRbPopbulk_carried h
  | rbBegindr => exact runRbBegindr_carried h
  | rbEnddr => exact runRbEnddr_carried h
  | rbClose => exact runRbClose_carried h
  | acquire => exact runAcquire_carried h
  | release => exact runRelease_carried h
  | lreset => exact runLreset_carried h
  | setstate => exact runSetstate_carried h
  | getstate => exact runGetstate_carried h
  | watchstate => exact runWatchstate_carried h
  | cancelwait => exact runCancelwait_carried h
  | terminate => exact runTerminate_carried h
  | snapshot => cases h; exact .snapshot _ _
  | enqRx => cases h; exact .loaded _ _
  | deqRx => exact runDeqRx_carried h
  | rbFree | rbUsed | rbCap | rbStatus | enqTx
  | reqEvActive | reqEvDataRate | reqEvDataSize | reqEvStopBits | reqEvTxParity | reqEvRxParity | reqEvXonByte
  | reqEvXoffByte | reqEvSpecialByte | reqEvValidDataByte | reqEvMinLatency | reqEvDataLatency | reqEvCharLatency
  | reqEvFlowControl | reqEvLineBreak | reqEvRxqSize | reqEvTxqSize | reqEvRxqHighWater | reqEvRxqLowWater
  | reqEvTxqHighWater | reqEvTxqLowWater => exact .of_respond h
  | _ => exact absurd rfl op

end Sys2Proof.Machine
end

section
/-! PROOFS. Every step as a run of updates, and the invariants that every step keeps (10_state.md sections 2 to 7). -/

namespace Sys2Proof.Machine

variable {i : Instr} {s t : State}

/-! ### Commands as runs of updates -/

theorem EventApplied.updates {u : State} (h : EventApplied i s u) (acquired : hasBit s.line Bit.acquired) :
    Updates s u := by
  cases h with
  | register k legal => exact .single (.bank k fun _ => legal)
  | activated =>
    have defaults : Update s s.linkDefaults := .bank LinkBank.defaults fun hp _ => LinkBank.defaults_ok hp
    exact defaults.updates.tail (.line _ _ (.active _ acquired))
  | deactivated => exact .single (.line _ _ (.active _ acquired))
  | lineBreak n => exact .single (.line _ _ (.signals n Bit.brk acquired (by decide)))

theorem Carried.updates (h : Carried i s t) : Updates s t := by
  cases h with
  | answered r => exact .single (.respond s r)
  | ring d b r h => exact (Update.ring d i.opc b h).updates.tail (.respond _ r)
  | acquired r => exact (Updates.acquisition s).tail (.respond _ r)
  | released r => exact (Update.line _ _ .clear).updates.tail (.respond _ r)
  | emptied r =>
    have rx : Update s (s.setRb .rx s.rx.clear) := .ring .rx Opc.lreset _ (.cleared rfl)
    have tx : Update (s.setRb .rx s.rx.clear) ((s.setRb .rx s.rx.clear).setRb .tx s.tx.clear) :=
      .ring .tx Opc.lreset _ (.cleared rfl)
    exact ((rx.updates.tail tx).tail (.fold _)).tail (.respond _ r)
  | signals n m r acquired settable =>
    exact (Update.line n m (.signals n m acquired settable)).updates.tail (.respond _ r)
  | folded r => exact (Update.fold s).updates.tail (.respond _ r)
  | parked tag x slot running sleeps ok unmet => exact .single (.park tag x slot running sleeps ok unmet)
  | cancelled w p q r => exact ((Update.abort w).updates.tail (.send _ p q)).tail (.respond _ r)
  | terminated oh ow r =>
    exact (Update.terminate.updates.tail (.quiet s.xferH s.xferW oh ow s.outN)).tail (.respond _ r)
  | snapshot n r => exact (Update.notify s n).updates.tail (.respond _ r)
  | loaded p x => exact .single (.setXfer s p x)
  | event u n r _ acquired applied => exact ((applied.updates acquired).tail (.notify u n)).tail (.respond _ r)

/-! ### Turns as runs of updates -/

theorem Wait.unmet_watch_iff {x : Wait} (hk : x.kind = .watch) {line : Word} :
    x.unmet line ↔ watchTest line x.target x.mask x.auto = .unsatisfied := by
  simp only [Wait.unmet, hk]

theorem Wait.unmet_acq_iff {x : Wait} (hk : x.kind = .acq) {line : Word} :
    x.unmet line ↔ hasBit line Bit.acquired := by
  simp only [Wait.unmet, hk]

/-- The re-test of a woken wait (R166): it is answered, acquires the line or goes back to sleep. -/
theorem State.retest_updates {w : Nat} {x : Wait} (slot : s.slot w = some x) (awake : x.awake = true) :
    Updates s (s.retest w x) := by
  have freed : Updates s (s.setSlot w none) := .single (.free w x slot awake)
  unfold State.retest
  split
  · next hk =>
    unfold State.retestWatch
    split
    · exact freed.tail (.send _ _ _)
    · exact freed.tail (.send _ _ _)
    · next hunmet => exact .single (.repark w x slot awake ((Wait.unmet_watch_iff hk).mpr hunmet))
  · next hk =>
    unfold State.retestAcquire
    split
    · next held => exact .single (.repark w x slot awake ((Wait.unmet_acq_iff hk).mpr held))
    · exact (freed.trans (Updates.acquisition _)).tail (.send _ _ _)

theorem retestStep_updates (s : State) (w : Nat) : Updates s (retestStep w s) := by
  unfold retestStep
  split
  · next slot =>
    split
    · next awake => exact State.retest_updates slot awake
    · exact .refl
  · exact .refl

/-- The copy under the buffer lock (R263, R266) does to the RX buffer what RB_PUSHBULK or RB_POPBULK does. -/
theorem copyStep_updates {p : Port} {job : XferJob} (h : copyStep p job s = .next t) : Updates s t := by
  unfold copyStep at h
  split at h
  · split at h
    · next hpush =>
      cases h
      exact (Update.ring .rx Opc.rbPushbulk _ (.pushedBulk _ _ _ rfl hpush)).updates.tail (.setXfer _ p _)
    · cases h
  · split at h
    · next hpop =>
      cases h
      exact (Update.ring .rx Opc.rbPopbulk _ (.poppedBulk _ _ _ rfl hpop)).updates.tail (.setXfer _ p _)
    · cases h

theorem foldStep_updates (p : Port) (job : XferJob) (n : Nat) (moved : List Byte) (s : State) :
    Updates s (foldStep p job n moved s) :=
  ((Update.setXfer s p .idle).updates.tail (.fold _)).tail (.send _ p _)

theorem transferStep_updates {p : Port} (h : transferStep p s = .next t) : Updates s t := by
  unfold transferStep at h
  split at h
  · cases h
    exact .refl
  · exact copyStep_updates h
  · cases h
    exact foldStep_updates ..

/-- A command carried out is an instruction carried out, or an error answer to a frame that names none. -/
theorem runCommand_updates {c : Command} (h : runCommand c s = .next t) : Updates s t := by
  unfold runCommand at h
  split at h
  · exact (exec_carried h).updates
  · cases h
  all_goals
    cases h
    exact .single (.respond s _)

theorem acceptStep_updates {p : Port} (h : acceptStep p s = .next t) : Updates s t := by
  unfold acceptStep at h
  split at h
  · cases h
    exact .refl
  · next c rest hpend =>
    split at h
    · exact (Update.take p c rest hpend).updates.trans (runCommand_updates h)
    · cases h
      exact .refl

/-- What a turn can do: reset the machine, present a command, or run updates. -/
theorem takeTurn_cases {turn : Turn} (h : takeTurn turn s = .next t) :
    (turn = .reset ∧ t = hardwareReset s) ∨
    (∃ p c, turn = .present p c ∧ t = s.setPend p (s.pend p ++ [c])) ∨
    Updates s t := by
  cases turn with
  | present p c => cases h; exact .inr (.inl ⟨p, c, rfl, rfl⟩)
  | accept p => exact .inr (.inr (acceptStep_updates h))
  | retest w => cases h; exact .inr (.inr (retestStep_updates s w))
  | transfer p => exact .inr (.inr (transferStep_updates h))
  | reset => cases h; exact .inl ⟨rfl, rfl⟩

/-! ### Invariants of every step -/

/-- An invariant that reset, every update, and the environment's changes of what is presented and scheduled keep is kept
by every step. -/
theorem step_keeps {P : State → Prop} (update : ∀ {s t}, Update s t → P s → P t)
    (reset : ∀ {s}, P s → P (hardwareReset s)) (present : ∀ {s} p cs, P s → P (s.setPend p cs))
    (schedule : ∀ {s} turns, P s → P { s with schedule := turns }) (hs : P s) (h : step s = .next t) : P t := by
  have turn : ∀ {turn : Turn} {u : State}, P u → takeTurn turn u = .next t → P t := by
    intro turn u hu hturn
    rcases takeTurn_cases hturn with ⟨-, rfl⟩ | ⟨p, c, -, rfl⟩ | hrun
    · exact reset hu
    · exact present p _ hu
    · exact hrun.keeps update hu
  rcases step_cases h with ⟨_, rest, -, hturn⟩ | ⟨_, -, -, hturn⟩ | ⟨-, -, rfl⟩
  · exact turn (schedule rest hs) hturn
  · exact turn hs hturn
  · exact hs

theorem RingBuffer.closedOver_ok (m : Memory) (depth : Nat) : (RingBuffer.closedOver m).ok depth :=
  .inr ⟨rfl, rfl, rfl, rfl, rfl, rfl⟩

theorem State.resetWith_buffersOk (p : Params) : (State.resetWith p).buffersOk :=
  ⟨RingBuffer.closedOver_ok [] _, RingBuffer.closedOver_ok [] _, Memory.ok_nil _, Memory.ok_nil _⟩

theorem State.resetWith_lineWord (p : Params) : LineWord (State.resetWith p).line := LineWord.zero

theorem State.resetWith_waitInv (p : Params) : (State.resetWith p).WaitInv := by
  have free : ∀ x : Wait, some x ∉ List.replicate p.nwatch none := by simp
  exact ⟨List.length_replicate, fun x hx => absurd hx (free x), (blockedInterest_free _).symm,
    fun x hx => absurd hx (free x)⟩

/-- The machine after reset is good for every legal choice of the parameters (R47). -/
theorem State.resetWith_inv {p : Params} (h : p.legal) : (State.resetWith p).Inv where
  params := h
  buffers := State.resetWith_buffersOk p
  line := State.lineOk_iff.mpr (State.resetWith_lineWord p)
  slots := (State.resetWith_waitInv p).slots
  waits := (State.resetWith_waitInv p).waits
  watchMask := (State.resetWith_waitInv p).watchMask
  noLostWakeup := (State.resetWith_waitInv p).noLostWakeup
  terminated := fun hstop => Bool.noConfusion hstop
  bank := LinkBank.defaults_ok h
  wmRx := .inl rfl
  wmTx := .inl rfl
  inputs := ⟨fun _ hc => absurd hc List.not_mem_nil, fun _ hc => absurd hc List.not_mem_nil,
    fun _ _ hc => absurd hc List.not_mem_nil⟩

/-- No step changes the parameters (R5). -/
theorem step_params (h : step s = .next t) : t.params = s.params :=
  step_keeps (P := fun u => u.params = s.params) (fun hu hp => hu.params.trans hp) id
    (fun p cs hp => (State.setPend_params _ p cs).trans hp) (fun _ => id) rfl h

theorem step_buffersOk (hp : s.params.legal) (hb : s.buffersOk) (h : step s = .next t) : t.buffersOk :=
  (step_keeps (P := fun u => u.params.legal ∧ u.buffersOk)
    (fun hu hinv => ⟨hu.params ▸ hinv.1, hu.buffersOk hinv.1 hinv.2⟩)
    (fun hinv => ⟨hinv.1, State.resetWith_buffersOk _⟩) (fun p _ hinv => by cases p <;> exact hinv) (fun _ => id)
    ⟨hp, hb⟩ h).2

theorem step_lineWord (hl : LineWord s.line) (h : step s = .next t) : LineWord t.line :=
  step_keeps (P := fun u => LineWord u.line) Update.lineWord (fun {u} _ => State.resetWith_lineWord u.params)
    (fun p cs hu => by rw [State.setPend_line]; exact hu) (fun _ => id) hl h

theorem step_watchMaskOk (hs : s.slotsOk) (hw : s.watchMaskOk) (h : step s = .next t) : t.slotsOk ∧ t.watchMaskOk :=
  step_keeps (P := fun u => u.slotsOk ∧ u.watchMaskOk) (fun hu hinv => hu.watchMaskOk hinv.1 hinv.2)
    (fun _ => ⟨(State.resetWith_waitInv _).slots, (State.resetWith_waitInv _).watchMask⟩)
    (fun p _ hinv => by cases p <;> exact hinv) (fun _ => id) ⟨hs, hw⟩ h

/-- The waits keep their invariants in every step, and no wake-up is lost (R45, R174). -/
theorem step_waitInv (hw : s.WaitInv) (h : step s = .next t) : t.WaitInv :=
  step_keeps Update.waitInv (fun {u} _ => (State.resetWith_waitInv u.params).congr rfl rfl rfl rfl)
    (fun p _ hu => hu.congr (by simp) (by simp) (by simp) (by simp)) (fun _ hu => hu.congr rfl rfl rfl rfl) hw h

end Sys2Proof.Machine
end

section
/-! PROOFS. The writers of the registers, the rest of the invariants of a good state, and the statements about reset and
about the invariants that every step keeps (10_state.md). -/

namespace Sys2Proof.Machine

variable {i : Instr} {s t : State}

/-! ### Who writes which register (R22, R23, R28, R35, R36, R41, R44) -/

/-- The registers of the bank that an accepted event can write. -/
theorem EventApplied.bank {u : State} (h : EventApplied i s u) :
    (u.bank.specialChars = s.bank.specialChars ∨
      i.sel = Kind.active ∨ i.sel = Kind.specialByte ∨ i.sel = Kind.validDataByte) ∧
    ((u.bank.flowRuntime = s.bank.flowRuntime ∧ u.bank.rxProto = s.bank.rxProto ∧ u.bank.txProto = s.bank.txProto) ∨
      i.sel = Kind.active) := by
  cases h with
  | register k _ special flow => exact ⟨special.imp_right .inr, .inl flow⟩
  | activated sel => exact ⟨.inr (.inl sel), .inr sel⟩
  | deactivated | lineBreak => simp

/-- An event touches neither buffers nor thresholds nor `Terminating`. -/
theorem EventApplied.frame {u : State} (h : EventApplied i s u) :
    u.rx = s.rx ∧ u.tx = s.tx ∧ u.wmRx = s.wmRx ∧ u.wmTx = s.wmTx ∧ u.terminating = s.terminating := by
  cases h <;> simp

/-- A step that leaves both buffers alone. -/
theorem RingChange.of_eq {o : Byte} (rx : t.rx = s.rx) (tx : t.tx = s.tx) (d : Dir) :
    RingChange o (s.depth d) (s.rb d) (t.rb d) := by
  have hd : t.rb d = s.rb d := by cases d <;> assumption
  exact hd ▸ .same

/-- An acquisition opens each buffer at its depth (R153). -/
theorem State.acquisition_ringChange {o : Byte} (op : o = Opc.acquire) (s : State) (d : Dir) :
    RingChange o (s.depth d) (s.rb d) (s.acquisition.rb d) := by
  cases d
  · show RingChange o _ _ s.acquisition.rx
    simpa [State.acquisition] using .acquired op
  · show RingChange o _ _ s.acquisition.tx
    simpa [State.acquisition] using .acquired op

/-- What each buffer can undergo when an instruction is carried out. -/
theorem Carried.ringChange (h : Carried i s t) (d : Dir) : RingChange i.opc (s.depth d) (s.rb d) (t.rb d) := by
  cases h with
  | ring e b r h =>
    rw [State.respond_rb]
    by_cases hde : d = e
    · subst hde
      rw [State.setRb_rb_self]
      exact h
    · rw [State.setRb_rb_ne _ _ _ _ hde]
      exact .same
  | acquired r op =>
    rw [State.respond_rb]
    exact s.acquisition_ringChange op d
  | emptied r op =>
    rw [State.respond_rb]
    cases d
    · show RingChange _ _ _ (State.fold _).rx
      simpa [State.fold, State.setRb] using .cleared op
    · show RingChange _ _ _ (State.fold _).tx
      simpa [State.fold, State.setRb] using .cleared op
  | event u n r _ _ applied =>
    obtain ⟨hrx, htx, -⟩ := applied.frame
    exact .of_eq (by simpa using hrx) (by simpa using htx) d
  | _ => exact .of_eq (by simp [State.fold]) (by simp [State.fold]) d

/-- The thresholds are written by an acquisition alone. -/
theorem Carried.wm (h : Carried i s t) : (t.wmRx = s.wmRx ∧ t.wmTx = s.wmTx) ∨ i.opc = Opc.acquire := by
  cases h with
  | acquired r op => exact .inr op
  | event u n r _ _ applied =>
    obtain ⟨-, -, hrx, htx, -⟩ := applied.frame
    simp [hrx, htx]
  | _ => simp [State.fold]

/-- `Terminating` is written by TERMINATE alone. -/
theorem Carried.terminating (h : Carried i s t) : t.terminating = s.terminating ∨ i.opc = Opc.terminate := by
  cases h with
  | terminated _ _ _ op => exact .inr op
  | event u n r _ _ applied =>
    obtain ⟨-, -, -, -, hstop⟩ := applied.frame
    simp [hstop]
  | _ => simp [State.fold, State.acquisition]

/-- The bank is written by an acquisition and by events alone. -/
theorem Carried.bank (h : Carried i s t) :
    t.bank = s.bank ∨ i.opc = Opc.acquire ∨ i.opc = Opc.exec ∧ ∃ u, EventApplied i s u ∧ t.bank = u.bank := by
  cases h with
  | acquired r op => exact .inr (.inl op)
  | event u n r op _ applied => exact .inr (.inr ⟨op, u, applied, by simp⟩)
  | _ => simp [State.fold]

/-! ### Inputs (R92) -/

theorem State.inputsOk_iff : s.inputsOk ↔
    (∀ p, ∀ c ∈ s.pend p, completeCommand c) ∧ ∀ p c, Turn.present p c ∈ s.schedule → completeCommand c := by
  constructor
  · rintro ⟨hH, hW, hsched⟩
    exact ⟨fun p => by cases p <;> assumption, hsched⟩
  · rintro ⟨hpend, hsched⟩
    exact ⟨hpend .H, hpend .W, hsched⟩

theorem State.setPend_pend_ne (s : State) (p q : Port) (cs : List Command) (h : q ≠ p) :
    (s.setPend p cs).pend q = s.pend q :=
  match p, q, h with
  | .H, .W, _ => rfl
  | .W, .H, _ => rfl
  | .H, .H, h => absurd rfl h
  | .W, .W, h => absurd rfl h

/-- A run of updates presents and schedules nothing. -/
theorem Updates.inputsOk (h : Updates s t) (hin : s.inputsOk) : t.inputsOk := by
  refine h.keeps (P := State.inputsOk) (fun {u v} hu hin => ?_) hin
  rw [State.inputsOk_iff] at hin ⊢
  exact ⟨fun p c hc => hin.1 p c (hu.pend_subset p hc), hu.schedule ▸ hin.2⟩

theorem State.present_inputsOk (hin : s.inputsOk) (p : Port) {c : Command} (hc : completeCommand c) :
    (s.setPend p (s.pend p ++ [c])).inputsOk := by
  have added : ∀ q, ∀ e ∈ (s.setPend p (s.pend p ++ [c])).pend q, e ∈ s.pend q ∨ e = c := by
    intro q e he
    by_cases hqp : q = p
    · subst hqp
      simpa using he
    · rw [State.setPend_pend_ne s p q _ hqp] at he
      exact .inl he
  rw [State.inputsOk_iff] at hin ⊢
  refine ⟨fun q e he => ?_, by simpa using hin.2⟩
  rcases added q e he with he | rfl
  · exact hin.1 q e he
  · exact hc

theorem takeTurn_inputsOk {turn : Turn} (hin : s.inputsOk) (hturn : ∀ p c, turn = .present p c → completeCommand c)
    (h : takeTurn turn s = .next t) : t.inputsOk := by
  rcases takeTurn_cases h with ⟨-, rfl⟩ | ⟨p, c, hpres, rfl⟩ | hrun
  · exact ⟨fun _ hc => absurd hc List.not_mem_nil, fun _ hc => absurd hc List.not_mem_nil, hin.2.2⟩
  · exact State.present_inputsOk hin p (hturn p c hpres)
  · exact hrun.inputsOk hin

/-- The engine presents no command to itself. -/
theorem State.freeTurn_ne_present (s : State) (p : Port) (c : Command) : s.freeTurn ≠ some (.present p c) := by
  unfold State.freeTurn
  intro h
  split at h
  · cases h
  · split at h
    · cases h
    · split at h
      · cases h
      · split at h
        · cases h
        · split at h <;> cases h

theorem step_inputsOk (hin : s.inputsOk) (h : step s = .next t) : t.inputsOk := by
  rcases step_cases h with ⟨turn, rest, hs, hturn⟩ | ⟨turn, -, hfree, hturn⟩ | ⟨-, -, rfl⟩
  · refine takeTurn_inputsOk (s := { s with schedule := rest }) ⟨hin.1, hin.2.1, fun p c hc => ?_⟩ (fun p c e => ?_) hturn
    · exact hin.2.2 p c (hs ▸ List.mem_cons_of_mem turn hc)
    · exact hin.2.2 p c (by rw [hs, e]; exact List.mem_cons_self)
  · exact takeTurn_inputsOk hin (fun p c e => absurd (e ▸ hfree) (s.freeTurn_ne_present p c)) hturn
  · exact hin

/-! ### Good states -/

theorem step_terminatedOk (ht : s.terminatedOk) (h : step s = .next t) : t.terminatedOk :=
  step_keeps (P := State.terminatedOk) Update.terminatedOk (fun _ hstop => Bool.noConfusion hstop)
    (fun p _ hu => by cases p <;> exact hu) (fun _ hu => hu) ht h

theorem step_bankOk (hp : s.params.legal) (hb : s.bank.ok s.params) (h : step s = .next t) : t.bank.ok t.params :=
  (step_keeps (P := fun u => u.params.legal ∧ u.bank.ok u.params)
    (fun hu hinv => ⟨hu.params ▸ hinv.1, hu.bankOk hinv.1 hinv.2⟩)
    (fun hinv => ⟨hinv.1, LinkBank.defaults_ok hinv.1⟩) (fun p _ hu => by cases p <;> exact hu) (fun _ hu => hu)
    ⟨hp, hb⟩ h).2

theorem step_wmOk (hrx : s.wmRx.ok s.params.depthRx) (htx : s.wmTx.ok s.params.depthTx) (h : step s = .next t) :
    t.wmRx.ok t.params.depthRx ∧ t.wmTx.ok t.params.depthTx :=
  step_keeps (P := fun u => u.wmRx.ok u.params.depthRx ∧ u.wmTx.ok u.params.depthTx)
    (fun hu hinv => hu.wmOk hinv.1 hinv.2) (fun _ => ⟨.inl rfl, .inl rfl⟩) (fun p _ hu => by cases p <;> exact hu)
    (fun _ hu => hu) ⟨hrx, htx⟩ h

/-- Every step keeps a good state good. -/
theorem State.Inv.step (hs : s.Inv) (h : step s = .next t) : t.Inv := by
  have waits := step_waitInv ⟨hs.slots, hs.waits, hs.watchMask, hs.noLostWakeup⟩ h
  obtain ⟨wmRx, wmTx⟩ := step_wmOk hs.wmRx hs.wmTx h
  exact {
    params := step_params h ▸ hs.params
    buffers := step_buffersOk hs.params hs.buffers h
    line := State.lineOk_iff.mpr (step_lineWord (State.lineOk_iff.mp hs.line) h)
    slots := waits.slots
    waits := waits.waits
    watchMask := waits.watchMask
    noLostWakeup := waits.noLostWakeup
    terminated := step_terminatedOk hs.terminated h
    bank := step_bankOk hs.params hs.bank h
    wmRx := wmRx
    wmTx := wmTx
    inputs := step_inputsOk hs.inputs h }

/-! ### The statements -/

/-- Settles O9: the state after reset is good because every register it writes is at a legal value. -/
theorem resetStateIsGood : Obligations.ResetStateIsGood :=
  ⟨fun _ => State.resetWith_inv, rfl, by decide, rfl, rfl, rfl⟩

/-- Settles O8: reset writes every register itself, and no other turn clears `Terminating`, since no update does. -/
theorem hardwareResetRestoresEverything : Obligations.HardwareResetRestoresEverything := by
  refine ⟨fun turn s t h hstop hrun => ?_, fun s turns hs => ?_⟩
  · rcases takeTurn_cases h with ⟨rfl, -⟩ | ⟨p, c, -, rfl⟩ | hupd
    · rfl
    · rw [State.setPend_terminating, hstop] at hrun
      exact absurd hrun Bool.noConfusion
    · have := hupd.keeps (P := fun u => u.terminating = true) Update.terminating hstop
      exact absurd (this.symm.trans hrun) Bool.noConfusion
  · refine ⟨hardwareReset { s with schedule := turns }, by rw [step, hs]; rfl, ?_⟩
    simp only [hardwareReset, State.resetWith, RingBuffer.closedOver, Watermarks.zero, LinkBank.defaults, and_self]

/-- Settles O53: every update of a buffer is one of the operations of 40_ringbuffer.md, and each keeps R25 and R27. -/
theorem stepKeepsRingBuffers : Obligations.StepKeepsRingBuffers := fun _ _ hp hb h =>
  ⟨step_buffersOk hp hb h, step_params h⟩

/-- Settles O54: every change of `State` is one of five kinds, and each keeps R32 bit by bit. -/
theorem stepKeepsStateWord : Obligations.StepKeepsStateWord := fun _ _ hl h =>
  State.lineOk_iff.mpr (step_lineWord (State.lineOk_iff.mp hl) h)

/-- Settles O55: what parks adds its interest, what is freed or put back to sleep was awake, and whoever wakes all clears
the mask. -/
theorem stepKeepsWatchMask : Obligations.StepKeepsWatchMask := fun _ _ hs hw h => step_watchMaskOk hs hw h

/-- Settles O57, each invariant by its own argument. -/
theorem stepKeepsGoodState : Obligations.StepKeepsGoodState := fun _ _ hs h => hs.step h

/-- Settles O51: the cases of what carrying out an instruction can do, read register by register. -/
theorem registersHaveTheirWriters : Obligations.RegistersHaveTheirWriters := by
  intro i s t h
  have hc := exec_carried h
  refine ⟨fun d hne => ?_, fun d hne => ?_, fun d hne => ?_, fun d hne => ?_, fun hne => ?_, fun hne => ?_, fun hne => ?_,
    fun hne => ?_, fun hne => ?_, ?_⟩
  · exact (hc.ringChange d).size_valid.resolve_left fun e => hne.elim (absurd e.1) (absurd e.2)
  · exact (hc.ringChange d).lastChar.resolve_left hne
  · exact (hc.ringChange d).nextChar.resolve_left hne
  · exact (hc.ringChange d).mem.resolve_left hne
  · exact hc.wm.resolve_left fun e => hne.elim (absurd e.1) (absurd e.2)
  · exact hc.terminating.resolve_left hne
  · exact (hc.bank.resolve_left hne).imp_right And.left
  · rcases hc.bank with e | op | ⟨op, u, applied, e⟩
    · exact absurd (congrArg LinkBank.specialChars e) hne
    · exact .inl op
    · exact .inr ⟨op, applied.bank.1.resolve_left (e ▸ hne)⟩
  · rcases hc.bank with e | op | ⟨op, u, applied, e⟩
    · simp [e] at hne
    · exact .inl op
    · refine .inr ⟨op, applied.bank.2.resolve_left fun hflow => ?_⟩
      rw [e] at hne
      exact hne.elim (absurd hflow.1) fun hne => hne.elim (absurd hflow.2.1) (absurd hflow.2.2)
  · exact hc.updates.keeps (P := fun u => u.params = s.params) (fun hu hp => hu.params.trans hp) rfl

end Sys2Proof.Machine
end

section
/-! PROOFS. Storage bytes outside the buffered windows cannot be observed (10_state.md R22, R27; 70_reset_and_hazards.md
R322). An instruction that moves no byte does the same whatever storage holds: it commutes with a change of the storage.
One that moves bytes moves the buffered ones, which two states that differ in stale bytes have in common. -/

namespace Sys2Proof.Machine

/-! ### A state with other storage -/

/-- The state with the storage of both buffers replaced. -/
def State.withStorage (s : State) (ms : Dir → Memory) : State :=
  { s with rx := { s.rx with mem := ms .rx }, tx := { s.tx with mem := ms .tx } }

/-- An outcome with the storage of the next state replaced. -/
def outcomeWithStorage (ms : Dir → Memory) : Host.Outcome State Fault Refusal → Host.Outcome State Fault Refusal
  | .next s => .next (s.withStorage ms)
  | .fault r => .fault r
  | .refused r => .refused r

variable {s t : State} {ms : Dir → Memory}

theorem State.withStorage_rb (s : State) (ms : Dir → Memory) (d : Dir) :
    (s.withStorage ms).rb d = { s.rb d with mem := ms d } := by
  cases d <;> rfl

/-- Two states that differ in stale bytes are a state and itself with other storage, the windows being equal. -/
theorem State.sameButStale_iff : s.sameButStale t ↔
    ∃ ms, t = s.withStorage ms ∧ ∀ d, ({ s.rb d with mem := ms d } : RingBuffer).contents = (s.rb d).contents := by
  constructor
  · rintro ⟨ht, ⟨hrx, hcrx⟩, htx, hctx⟩
    refine ⟨fun d => (t.rb d).mem, ?_, fun d => ?_⟩
    · rw [ht, hrx, htx]
      rfl
    · cases d
      · exact hrx ▸ hcrx
      · exact htx ▸ hctx
  · rintro ⟨ms, rfl, hcont⟩
    exact ⟨rfl, ⟨rfl, hcont .rx⟩, rfl, hcont .tx⟩

/-! ### Operations that do not look at storage -/

theorem State.send_withStorage (s : State) (p : Port) (r : Response) :
    (s.withStorage ms).send p r = (s.send p r).withStorage ms := by
  cases p <;> rfl

theorem State.respond_withStorage (s : State) (r : Response) :
    (s.withStorage ms).respond r = (s.respond r).withStorage ms := State.send_withStorage s s.issuer r

theorem State.setXfer_withStorage (s : State) (p : Port) (x : Xfer) :
    (s.withStorage ms).setXfer p x = (s.setXfer p x).withStorage ms := by
  cases p <;> rfl

theorem State.setPend_withStorage (s : State) (p : Port) (cs : List Command) :
    (s.withStorage ms).setPend p cs = (s.setPend p cs).withStorage ms := by
  cases p <;> rfl

theorem State.setRb_withStorage (s : State) (d : Dir) (b : RingBuffer) :
    (s.withStorage ms).setRb d { b with mem := ms d } = (s.setRb d b).withStorage ms := by
  cases d <;> rfl

theorem State.changeState_withStorage (s : State) (n m : Word) :
    (s.withStorage ms).changeState n m = (s.changeState n m).withStorage ms := by
  rw [State.changeState_eq, State.changeState_eq]
  rfl

theorem State.fold_withStorage (s : State) : (s.withStorage ms).fold = s.fold.withStorage ms :=
  State.changeState_withStorage s s.queueBits Mask.queue

theorem State.acquisition_withStorage (s : State) : (s.withStorage ms).acquisition = s.acquisition.withStorage ms :=
  State.changeState_withStorage s.rebuild _ Mask.all

theorem State.complete_withStorage (s : State) (w : Nat) (x : Wait) (k : Status) (d0 : Word) :
    (s.withStorage ms).complete w x k d0 = (s.complete w x k d0).withStorage ms :=
  State.send_withStorage (s.setSlot w none) x.port _

theorem State.completeOffline_withStorage (xs : List (Option Wait)) (s : State) (w : Nat) :
    (s.withStorage ms).completeOffline w xs = (s.completeOffline w xs).withStorage ms := by
  induction xs generalizing s w with
  | nil => rfl
  | cons o xs ih =>
    cases o with
    | none => exact ih s (w + 1)
    | some x =>
      simp only [State.completeOffline, State.complete_withStorage]
      exact ih _ (w + 1)

theorem State.ite_withStorage {c : Prop} [Decidable c] {a b a' b' : State} (ha : a' = a.withStorage ms)
    (hb : b' = b.withStorage ms) : (if c then a' else b') = (if c then a else b).withStorage ms := by
  split
  · exact ha
  · exact hb

theorem State.setActive_withStorage (s : State) (on : Bool) :
    (s.withStorage ms).setActive on = (s.setActive on).withStorage ms :=
  State.ite_withStorage (State.ite_withStorage rfl (State.changeState_withStorage s.linkDefaults _ _))
    (State.changeState_withStorage s _ _)

theorem State.configEvent_withStorage (s : State) (tag : Tag) (v : Prop) [Decidable v] {u u' : State}
    (hu : u' = u.withStorage ms) :
    (s.withStorage ms).configEvent tag v u' = (s.configEvent tag v u).withStorage ms := by
  subst hu
  exact State.ite_withStorage (State.respond_withStorage s _)
    (State.ite_withStorage (State.respond_withStorage s _) (State.respond_withStorage (u.notify _) _))

theorem State.retest_withStorage (s : State) (w : Nat) (x : Wait) :
    (s.withStorage ms).retest w x = (s.retest w x).withStorage ms := by
  have watch : (s.withStorage ms).retestWatch w x = (s.retestWatch w x).withStorage ms := by
    have hline : (s.withStorage ms).line = s.line := rfl
    unfold State.retestWatch
    rw [hline]
    cases watchTest s.line x.target x.mask x.auto with
    | ioError => exact State.complete_withStorage s w x _ _
    | satisfied => exact State.complete_withStorage s w x _ _
    | unsatisfied => rfl
  have acquire : (s.withStorage ms).retestAcquire w x = (s.retestAcquire w x).withStorage ms := by
    refine State.ite_withStorage rfl ?_
    have hacq : ((s.withStorage ms).setSlot w none).acquisition = (s.setSlot w none).acquisition.withStorage ms :=
      State.acquisition_withStorage (s.setSlot w none)
    simp only [hacq]
    exact State.send_withStorage (s.setSlot w none).acquisition x.port _
  unfold State.retest
  cases x.kind with
  | watch => exact watch
  | acq => exact acquire

theorem retestStep_withStorage (s : State) (w : Nat) :
    retestStep w (s.withStorage ms) = (retestStep w s).withStorage ms := by
  have hslot : (s.withStorage ms).slot w = s.slot w := rfl
  unfold retestStep
  rw [hslot]
  cases s.slot w with
  | none => rfl
  | some x => exact State.ite_withStorage (State.retest_withStorage s w x) rfl

theorem foldStep_withStorage (p : Port) (job : XferJob) (n : Nat) (moved : List Byte) (s : State) :
    foldStep p job n moved (s.withStorage ms) = (foldStep p job n moved s).withStorage ms := by
  unfold foldStep
  rw [State.setXfer_withStorage, State.fold_withStorage]
  exact State.send_withStorage _ p _

/-! ### Instructions that move no byte -/

theorem next_withStorage {u u' : State} (h : u' = u.withStorage ms) :
    (.next u' : Host.Outcome State Fault Refusal) = outcomeWithStorage ms (.next u) := by
  rw [h, outcomeWithStorage]

theorem respond_outcome (s : State) (r : Response) :
    (.next ((s.withStorage ms).respond r) : Host.Outcome State Fault Refusal) =
      outcomeWithStorage ms (.next (s.respond r)) := next_withStorage (State.respond_withStorage s r)

theorem ite_outcome {c : Prop} [Decidable c] {a b a' b' : Host.Outcome State Fault Refusal}
    (ha : a' = outcomeWithStorage ms a) (hb : b' = outcomeWithStorage ms b) :
    (if c then a' else b') = outcomeWithStorage ms (if c then a else b) := by
  split
  · exact ha
  · exact hb

/-- A buffer replaced by one with the storage it had, and an answer. -/
theorem setRb_outcome (s : State) (d : Dir) (b : RingBuffer) (r : Response) :
    (.next (((s.withStorage ms).setRb d { b with mem := ms d }).respond r) : Host.Outcome State Fault Refusal) =
      outcomeWithStorage ms (.next ((s.setRb d b).respond r)) := by
  rw [State.setRb_withStorage]
  exact respond_outcome _ r

theorem event_outcome (s : State) (tag : Tag) (v : Prop) [Decidable v] {u u' : State} (hu : u' = u.withStorage ms) :
    (.next ((s.withStorage ms).configEvent tag v u') : Host.Outcome State Fault Refusal) =
      outcomeWithStorage ms (.next (s.configEvent tag v u)) := next_withStorage (State.configEvent_withStorage s tag v hu)

theorem RingBuffer.consume_withMem (b : RingBuffer) (m : Memory) (n : Nat) :
    ({ b with mem := m } : RingBuffer).consume n = { b.consume n with mem := m } := by
  unfold RingBuffer.consume
  split <;> rfl

theorem runRbInit_withStorage (d : Dir) (tag : Tag) (a : Word) (s : State) :
    runRbInit d tag a (s.withStorage ms) = outcomeWithStorage ms (runRbInit d tag a s) := by
  cases d
  · exact ite_outcome (respond_outcome s _) (setRb_outcome s .rx (s.rx.openAt a.toNat) _)
  · exact ite_outcome (respond_outcome s _) (setRb_outcome s .tx (s.tx.openAt a.toNat) _)

theorem runRbEnddr_withStorage (d : Dir) (tag : Tag) (a : Word) (s : State) :
    runRbEnddr d tag a (s.withStorage ms) = outcomeWithStorage ms (runRbEnddr d tag a s) := by
  unfold runRbEnddr
  rw [State.withStorage_rb, RingBuffer.consume_withMem]
  exact ite_outcome (respond_outcome s _) (setRb_outcome s d _ _)

theorem runRbClose_withStorage (d : Dir) (tag : Tag) (s : State) :
    runRbClose d tag (s.withStorage ms) = outcomeWithStorage ms (runRbClose d tag s) := by
  cases d
  · exact setRb_outcome s .rx s.rx.close _
  · exact setRb_outcome s .tx s.tx.close _

theorem runAcquire_withStorage (blocking : Bool) (tag : Tag) (s : State) :
    runAcquire blocking tag (s.withStorage ms) = outcomeWithStorage ms (runAcquire blocking tag s) := by
  unfold runAcquire
  refine ite_outcome (respond_outcome s _) (ite_outcome (next_withStorage ?_) ?_)
  · rw [State.acquisition_withStorage]
    exact State.respond_withStorage s.acquisition _
  · exact ite_outcome (respond_outcome s _) (ite_outcome (respond_outcome s _) rfl)

theorem runRelease_withStorage (tag : Tag) (s : State) :
    runRelease tag (s.withStorage ms) = outcomeWithStorage ms (runRelease tag s) := by
  unfold runRelease
  rw [State.changeState_withStorage]
  exact ite_outcome (respond_outcome s _) (ite_outcome (respond_outcome s _) (respond_outcome _ _))

theorem runLreset_withStorage (tag : Tag) (s : State) :
    runLreset tag (s.withStorage ms) = outcomeWithStorage ms (runLreset tag s) := by
  refine next_withStorage ?_
  have hfold := State.fold_withStorage (ms := ms) { s with rx := s.rx.clear, tx := s.tx.clear }
  exact (congrArg (State.respond · _) hfold).trans (State.respond_withStorage _ _)

theorem runSetstate_withStorage (tag : Tag) (a b : Word) (s : State) :
    runSetstate tag a b (s.withStorage ms) = outcomeWithStorage ms (runSetstate tag a b s) := by
  unfold runSetstate
  rw [State.changeState_withStorage]
  exact ite_outcome (respond_outcome s _) (ite_outcome (respond_outcome s _) (respond_outcome _ _))

theorem runGetstate_withStorage (tag : Tag) (s : State) :
    runGetstate tag (s.withStorage ms) = outcomeWithStorage ms (runGetstate tag s) := by
  unfold runGetstate
  rw [State.fold_withStorage]
  exact respond_outcome s.fold _

theorem runWatchstate_withStorage (tag : Tag) (a b : Word) (s : State) :
    runWatchstate tag a b (s.withStorage ms) = outcomeWithStorage ms (runWatchstate tag a b s) := by
  have hline : (s.withStorage ms).line = s.line := rfl
  unfold runWatchstate
  rw [hline]
  refine ite_outcome (respond_outcome s _) (ite_outcome (respond_outcome s _) ?_)
  cases watchTest s.line a b (autoOf b) with
  | ioError => exact respond_outcome s _
  | satisfied => exact respond_outcome s _
  | unsatisfied => exact ite_outcome (respond_outcome s _) rfl

theorem runCancelwait_withStorage (tag : Tag) (s : State) :
    runCancelwait tag (s.withStorage ms) = outcomeWithStorage ms (runCancelwait tag s) := by
  have hslot : (s.withStorage ms).slot tag.toNat = s.slot tag.toNat := rfl
  unfold runCancelwait
  rw [hslot]
  refine ite_outcome (respond_outcome s _) ?_
  cases s.slot tag.toNat with
  | none => exact respond_outcome s _
  | some x =>
    refine next_withStorage ?_
    rw [State.complete_withStorage]
    exact State.respond_withStorage (s.complete tag.toNat x .cancelled 0#32).wakeAll _

theorem State.terminated_withStorage (s : State) : (s.withStorage ms).terminated = s.terminated.withStorage ms :=
  congrArg (fun u : State => ({ u with watchMask := 0#32 } : State))
    (State.completeOffline_withStorage s.slots { s with terminating := true } 0)

theorem runTerminate_withStorage (tag : Tag) (s : State) :
    runTerminate tag (s.withStorage ms) = outcomeWithStorage ms (runTerminate tag s) := by
  rw [runTerminate_eq, runTerminate_eq, State.terminated_withStorage]
  exact respond_outcome s.terminated _

theorem runDeqRx_withStorage (tag : Tag) (a b : Word) (s : State) :
    runDeqRx tag a b (s.withStorage ms) = outcomeWithStorage ms (runDeqRx tag a b s) :=
  ite_outcome (respond_outcome s _)
    (ite_outcome (respond_outcome s _) (next_withStorage (State.setXfer_withStorage s s.issuer _)))

theorem exec_event_withStorage {i : Instr} (op : i.opc = Opc.exec) (s : State) :
    exec i (s.withStorage ms) = outcomeWithStorage ms (exec i s) := by
  cases i with
  | execEvActive tag a => exact event_outcome s tag _ (State.setActive_withStorage s _)
  | execEvLineBreak tag a => exact event_outcome s tag _ (State.changeState_withStorage s _ _)
  | execEvDataRate tag | execEvDataSize tag | execEvStopBits tag | execEvTxParity tag | execEvRxParity tag
  | execEvXonByte tag | execEvXoffByte tag | execEvSpecialByte tag | execEvValidDataByte tag | execEvMinLatency tag
  | execEvDataLatency tag | execEvCharLatency tag | execEvFlowControl tag | execEvRxqSize tag | execEvTxqSize tag
  | execEvRxqHighWater tag | execEvRxqLowWater tag | execEvTxqHighWater tag | execEvTxqLowWater tag =>
    exact event_outcome s tag _ rfl
  | _ => exact absurd (beq_iff_eq.mpr op) Bool.false_ne_true

/-- The opcodes of the instructions that read or write storage (R22). -/
def movesBytes (o : Byte) : Bool :=
  o == Opc.rbPush || o == Opc.rbPop || o == Opc.rbPushbulk || o == Opc.rbPopbulk || o == Opc.rbBegindr

/-- An instruction that moves no byte does the same whatever storage holds. -/
theorem exec_withStorage {i : Instr} (hi : movesBytes i.opc = false) (s : State) :
    exec i (s.withStorage ms) = outcomeWithStorage ms (exec i s) := by
  by_cases op : i.opc = Opc.exec
  · exact exec_event_withStorage op s
  cases i with
  | rbInit d tag a => exact runRbInit_withStorage d tag a s
  | rbEnddr d tag a => exact runRbEnddr_withStorage d tag a s
  | rbClose d tag => exact runRbClose_withStorage d tag s
  | rbFree d | rbUsed d | rbCap d | rbStatus d => cases d <;> exact respond_outcome s _
  | acquire blocking tag => exact runAcquire_withStorage blocking tag s
  | release tag => exact runRelease_withStorage tag s
  | lreset tag => exact runLreset_withStorage tag s
  | setstate tag a b => exact runSetstate_withStorage tag a b s
  | getstate tag => exact runGetstate_withStorage tag s
  | watchstate tag a b => exact runWatchstate_withStorage tag a b s
  | cancelwait tag => exact runCancelwait_withStorage tag s
  | terminate tag => exact runTerminate_withStorage tag s
  | snapshot tag => exact respond_outcome (s.notify _) _
  | enqRx tag bytes => exact next_withStorage (State.setXfer_withStorage s s.issuer _)
  | deqRx tag a b => exact runDeqRx_withStorage tag a b s
  | enqTx
  | reqEvActive | reqEvDataRate | reqEvDataSize | reqEvStopBits | reqEvTxParity | reqEvRxParity | reqEvXonByte
  | reqEvXoffByte | reqEvSpecialByte | reqEvValidDataByte | reqEvMinLatency | reqEvDataLatency | reqEvCharLatency
  | reqEvFlowControl | reqEvLineBreak | reqEvRxqSize | reqEvTxqSize | reqEvRxqHighWater | reqEvRxqLowWater
  | reqEvTxqHighWater | reqEvTxqLowWater => exact respond_outcome s _
  | rbPush | rbPop | rbPushbulk | rbPopbulk | rbBegindr => exact absurd hi.symm Bool.false_ne_true
  | _ => exact absurd rfl op

end Sys2Proof.Machine
end

section
/-! PROOFS. Storage bytes outside the buffered windows cannot be observed, continued: the moves of bytes, the turns, and the
statement (10_state.md R22, R27; 70_reset_and_hazards.md R322). -/

namespace Sys2Proof.Machine

/-! ### Moves of bytes between buffers that differ in stale bytes -/

section Moves

variable {depth : Nat} {b b' c : RingBuffer}

/-- The invariants of a buffer do not look at its storage. -/
theorem RingBuffer.sameButStale.ok (h : b.sameButStale c) (hb : b.ok depth) : c.ok depth := by
  rw [h.1]
  exact hb

theorem RingBuffer.sameButStale.push (h : b.sameButStale c) (hb : b.ok depth) (hm : b.mem.ok depth)
    (hmc : c.mem.ok depth) (room : b.inQueue ≠ b.size) {x : Byte} (hp : b.push x = some b') :
    ∃ c', c.push x = some c' ∧ b'.sameButStale c' := by
  have hc := h.ok hb
  obtain ⟨m, hcb, hcont⟩ : ∃ m, c = { b with mem := m } ∧ c.contents = b.contents := ⟨c.mem, h⟩
  obtain ⟨d, hd, -, -, hdeq, hdcont, -⟩ := RingBuffer.push_spec hb hm room x
  obtain ⟨e, he, -, -, heeq, hecont, -⟩ := RingBuffer.push_spec hc hmc (by rw [hcb]; exact room) x
  cases hp.symm.trans hd
  refine ⟨e, he, ?_, by rw [hecont, hdcont, hcont]⟩
  rw [heeq, hdeq, hcb]
  rfl

theorem RingBuffer.sameButStale.pushBulk (h : b.sameButStale c) (hb : b.ok depth) (hm : b.mem.ok depth)
    (hmc : c.mem.ok depth) {xs : List Byte} {n : Nat} (hp : b.pushBulk xs = some (n, b')) :
    ∃ c', c.pushBulk xs = some (n, c') ∧ b'.sameButStale c' := by
  have hc := h.ok hb
  obtain ⟨m, hcb, hcont⟩ : ∃ m, c = { b with mem := m } ∧ c.contents = b.contents := ⟨c.mem, h⟩
  have hfree : c.free = b.free := by rw [hcb]; rfl
  obtain ⟨d, hd, -, -, hdeq, hdcont, -⟩ := RingBuffer.pushBulk_spec hb hm xs
  obtain ⟨e, he, -, -, heeq, hecont, -⟩ := RingBuffer.pushBulk_spec hc hmc xs
  cases hp.symm.trans hd
  refine ⟨e, hfree ▸ he, ?_, by rw [hecont, hdcont, hcont, hfree]⟩
  rw [heeq, hdeq, hfree, hcb]

theorem RingBuffer.sameButStale.pop (h : b.sameButStale c) (hb : b.ok depth) (filled : b.inQueue ≠ 0) {x : Byte}
    (hp : b.pop = some (x, b')) : ∃ c', c.pop = some (x, c') ∧ b'.sameButStale c' := by
  have hc := h.ok hb
  obtain ⟨m, hcb, hcont⟩ : ∃ m, c = { b with mem := m } ∧ c.contents = b.contents := ⟨c.mem, h⟩
  obtain ⟨y, d, hd, -, -, hdeq, hdcont⟩ := RingBuffer.pop_spec hb filled
  obtain ⟨z, e, he, -, -, heeq, hecont⟩ := RingBuffer.pop_spec hc (by rw [hcb]; exact filled)
  cases hp.symm.trans hd
  obtain ⟨rfl, htail⟩ := List.cons.inj (hdcont.symm.trans (hcont.symm.trans hecont))
  refine ⟨e, he, ?_, htail.symm⟩
  rw [heeq, hdeq, hcb]
  rfl

theorem RingBuffer.sameButStale.popBulk (h : b.sameButStale c) (hb : b.ok depth) {xs : List Byte} {n : Nat}
    (hp : b.popBulk n = some (xs, b')) : ∃ c', c.popBulk n = some (xs, c') ∧ b'.sameButStale c' := by
  have hc := h.ok hb
  obtain ⟨m, hcb, hcont⟩ : ∃ m, c = { b with mem := m } ∧ c.contents = b.contents := ⟨c.mem, h⟩
  obtain ⟨d, hd, -, hdeq, hdcont⟩ := RingBuffer.popBulk_spec hb n
  obtain ⟨e, he, -, heeq, hecont⟩ := RingBuffer.popBulk_spec hc n
  cases hp.symm.trans hd
  refine ⟨e, hcont ▸ he, ?_, by rw [hecont, hdcont, hcont]⟩
  rw [heeq, hdeq, hcb]

theorem RingBuffer.sameButStale.expose (h : b.sameButStale c) (hb : b.ok depth) {xs : List Byte} {n : Nat}
    (hp : b.expose n = some (xs, b')) : ∃ c', c.expose n = some (xs, c') ∧ b'.sameButStale c' := by
  have hc := h.ok hb
  obtain ⟨m, hcb, hcont⟩ : ∃ m, c = { b with mem := m } ∧ c.contents = b.contents := ⟨c.mem, h⟩
  have hlen : c.windowLength n = b.windowLength n := by rw [hcb]; rfl
  have hd := (RingBuffer.expose_spec hb n).1
  have he := (RingBuffer.expose_spec hc n).1
  cases hp.symm.trans hd
  rw [hcont, hlen] at he
  refine ⟨_, he, by rw [hcb], ?_⟩
  exact (RingBuffer.contents_congr rfl rfl rfl rfl).trans
    (hcont.trans (RingBuffer.contents_congr (b := b) (c := { b with exposed := _ }) rfl rfl rfl rfl).symm)

/-- An operation that moves no byte keeps the windows of two buffers equal. -/
theorem RingChange.contents_withMem {o : Byte} {m : Memory} (h : RingChange o depth b c) (ho : movesBytes o = false)
    (hb : b.ok depth) (hcont : ({ b with mem := m } : RingBuffer).contents = b.contents) :
    ({ c with mem := m } : RingBuffer).contents = c.contents := by
  cases h with
  | same => exact hcont
  | opened | acquired | closed | cleared => rfl
  | consumed n _ le =>
    rw [← RingBuffer.consume_withMem, (RingBuffer.consume_spec hb le).2.1, ← hcont]
    exact (RingBuffer.consume_spec (b := { b with mem := m }) hb le).2.1
  | pushed _ _ op | popped _ _ op | pushedBulk _ _ _ op | poppedBulk _ _ _ op | exposed _ _ _ op =>
    subst op
    exact absurd ho.symm Bool.false_ne_true

end Moves

/-! ### States that differ in stale bytes -/

variable {s s' t : State} {d : Dir}

theorem State.buffersOk.rb (h : s.buffersOk) (d : Dir) : (s.rb d).ok (s.depth d) ∧ (s.rb d).mem.ok (s.depth d) := by
  obtain ⟨hrx, htx, hmrx, hmtx⟩ := h
  cases d
  · exact ⟨hrx, hmrx⟩
  · exact ⟨htx, hmtx⟩

theorem State.sameButStale.rb (h : s.sameButStale t) (d : Dir) : (s.rb d).sameButStale (t.rb d) := by
  cases d
  · exact h.2.1
  · exact h.2.2

theorem State.sameButStale.params (h : s.sameButStale t) : t.params = s.params := by
  rw [h.1]

theorem State.sameButStale.depth (h : s.sameButStale t) (d : Dir) : t.depth d = s.depth d := by
  cases d <;> simp only [State.depth, h.params]

theorem State.sameButStale.setRb {b c : RingBuffer} (h : s.sameButStale t) (d : Dir) (hbc : b.sameButStale c) :
    (s.setRb d b).sameButStale (t.setRb d c) := by
  obtain ⟨ht, hrx, htx⟩ := h
  cases d
  · refine ⟨?_, hbc, htx⟩
    rw [ht]
    rfl
  · refine ⟨?_, hrx, hbc⟩
    rw [ht]
    rfl

/-- A step that moves no byte, taken from two states that differ in stale bytes. -/
theorem State.sameButStale_withStorage {o : Byte} {ms : Dir → Memory} (hs : s.buffersOk)
    (hcont : ∀ d, ({ s.rb d with mem := ms d } : RingBuffer).contents = (s.rb d).contents) (ho : movesBytes o = false)
    (hring : ∀ d, RingChange o (s.depth d) (s.rb d) (s'.rb d)) : s'.sameButStale (s'.withStorage ms) :=
  State.sameButStale_iff.mpr ⟨ms, rfl, fun d => (hring d).contents_withMem ho (hs.rb d).1 (hcont d)⟩

/-- An update that looks at no storage and leaves the buffers alone keeps two states equal up to stale bytes. -/
theorem State.sameButStale.update (h : s.sameButStale t) {f : State → State}
    (commutes : ∀ ms, f (s.withStorage ms) = (f s).withStorage ms) (rb : ∀ d, (f s).rb d = s.rb d) :
    (f s).sameButStale (f t) := by
  obtain ⟨ms, rfl, hcont⟩ := State.sameButStale_iff.mp h
  exact State.sameButStale_iff.mpr ⟨ms, commutes ms, fun d => by rw [rb]; exact hcont d⟩

theorem State.sameButStale.respond (h : s.sameButStale t) (r : Response) : (s.respond r).sameButStale (t.respond r) :=
  h.update (f := (State.respond · r)) (fun _ => State.respond_withStorage s r) fun d => State.respond_rb s r d

theorem State.sameButStale.setXfer (h : s.sameButStale t) (p : Port) (x : Xfer) :
    (s.setXfer p x).sameButStale (t.setXfer p x) :=
  h.update (f := (State.setXfer · p x)) (fun _ => State.setXfer_withStorage s p x) fun d => State.setXfer_rb s p x d

theorem State.sameButStale.setPend (h : s.sameButStale t) (p : Port) (cs : List Command) :
    (s.setPend p cs).sameButStale (t.setPend p cs) :=
  h.update (f := (State.setPend · p cs)) (fun _ => State.setPend_withStorage s p cs) fun d => by cases p <;> cases d <;> rfl

theorem State.sameButStale.taking (h : s.sameButStale t) (p : Port) (cs : List Command) :
    (s.taking p cs).sameButStale (t.taking p cs) :=
  h.update (f := (State.taking · p cs)) (fun _ => by cases p <;> rfl) fun d => by cases p <;> cases d <;> rfl

theorem State.sameButStale.schedule (h : s.sameButStale t) (turns : List Turn) :
    ({ s with schedule := turns } : State).sameButStale { t with schedule := turns } :=
  h.update (f := fun u => { u with schedule := turns }) (fun _ => rfl) fun d => by cases d <;> rfl

/-! ### Instructions that move bytes -/

theorem runRbPush_stale {tag : Tag} {a : Word} (h : s.sameButStale t) (hs : s.buffersOk) (ht : t.buffersOk)
    (hr : runRbPush d tag a s = .next s') : ∃ t', runRbPush d tag a t = .next t' ∧ s'.sameButStale t' := by
  have hrb := h.rb d
  have hsize : (t.rb d).size = (s.rb d).size := by rw [hrb.1]
  have hcount : (t.rb d).inQueue = (s.rb d).inQueue := by rw [hrb.1]
  unfold runRbPush at hr ⊢
  rw [hsize, hcount]
  split at hr
  · next hbyte =>
    cases hr
    exact ⟨_, if_pos hbyte, h.respond _⟩
  · next hbyte =>
    rw [if_neg hbyte]
    split at hr
    · next full =>
      cases hr
      exact ⟨_, if_pos full, h.respond _⟩
    · next room =>
      rw [if_neg room]
      split at hr
      · next hp =>
        cases hr
        obtain ⟨c, hc, hbc⟩ := hrb.push (hs.rb d).1 (hs.rb d).2 (h.depth d ▸ (ht.rb d).2) room hp
        rw [hc]
        exact ⟨_, rfl, (h.setRb d hbc).respond _⟩
      · cases hr

theorem runRbPop_stale {tag : Tag} (h : s.sameButStale t) (hs : s.buffersOk) (hr : runRbPop d tag s = .next s') :
    ∃ t', runRbPop d tag t = .next t' ∧ s'.sameButStale t' := by
  have hrb := h.rb d
  have hcount : (t.rb d).inQueue = (s.rb d).inQueue := by rw [hrb.1]
  unfold runRbPop at hr ⊢
  rw [hcount]
  split at hr
  · next empty =>
    cases hr
    exact ⟨_, if_pos empty, h.respond _⟩
  · next filled =>
    rw [if_neg filled]
    split at hr
    · next hp =>
      cases hr
      obtain ⟨c, hc, hbc⟩ := hrb.pop (hs.rb d).1 filled hp
      rw [hc]
      exact ⟨_, rfl, (h.setRb d hbc).respond _⟩
    · cases hr

theorem runRbPushbulk_stale {tag : Tag} {bytes : List Byte} (h : s.sameButStale t) (hs : s.buffersOk)
    (ht : t.buffersOk) (hr : runRbPushbulk d tag bytes s = .next s') :
    ∃ t', runRbPushbulk d tag bytes t = .next t' ∧ s'.sameButStale t' := by
  unfold runRbPushbulk at hr ⊢
  split at hr
  · next hp =>
    cases hr
    obtain ⟨c, hc, hbc⟩ := (h.rb d).pushBulk (hs.rb d).1 (hs.rb d).2 (h.depth d ▸ (ht.rb d).2) hp
    rw [hc]
    exact ⟨_, rfl, (h.setRb d hbc).respond _⟩
  · cases hr

theorem runRbPopbulk_stale {tag : Tag} {a : Word} (h : s.sameButStale t) (hs : s.buffersOk)
    (hr : runRbPopbulk d tag a s = .next s') : ∃ t', runRbPopbulk d tag a t = .next t' ∧ s'.sameButStale t' := by
  unfold runRbPopbulk at hr ⊢
  split at hr
  · next hp =>
    cases hr
    obtain ⟨c, hc, hbc⟩ := (h.rb d).popBulk (hs.rb d).1 hp
    rw [hc]
    exact ⟨_, rfl, (h.setRb d hbc).respond _⟩
  · cases hr

theorem runRbBegindr_stale {tag : Tag} {a : Word} (h : s.sameButStale t) (hs : s.buffersOk)
    (hr : runRbBegindr d tag a s = .next s') : ∃ t', runRbBegindr d tag a t = .next t' ∧ s'.sameButStale t' := by
  have hrb := h.rb d
  have hcursor : (t.rb d).lastChar = (s.rb d).lastChar := by rw [hrb.1]
  have hlen : (t.rb d).windowLength a.toNat = (s.rb d).windowLength a.toNat := by rw [hrb.1]; rfl
  have hwrap : (t.rb d).windowWrapped a.toNat = (s.rb d).windowWrapped a.toNat := by rw [hrb.1]; rfl
  unfold runRbBegindr at hr ⊢
  rw [hcursor, hlen, hwrap]
  split at hr
  · next hp =>
    cases hr
    obtain ⟨c, hc, hbc⟩ := hrb.expose (hs.rb d).1 hp
    rw [hc]
    exact ⟨_, rfl, (h.setRb d hbc).respond _⟩
  · cases hr

/-! ### Every turn -/

/-- Two states that differ in stale bytes carry out an instruction alike. -/
theorem exec_stale {i : Instr} (h : s.sameButStale t) (hs : s.buffersOk) (ht : t.buffersOk) (hr : exec i s = .next s') :
    ∃ t', exec i t = .next t' ∧ s'.sameButStale t' := by
  cases hi : movesBytes i.opc with
  | true =>
    cases i with
    | rbPush => exact runRbPush_stale h hs ht hr
    | rbPop => exact runRbPop_stale h hs hr
    | rbPushbulk => exact runRbPushbulk_stale h hs ht hr
    | rbPopbulk => exact runRbPopbulk_stale h hs hr
    | rbBegindr => exact runRbBegindr_stale h hs hr
    | _ => exact absurd hi Bool.false_ne_true
  | false =>
    obtain ⟨ms, rfl, hcont⟩ := State.sameButStale_iff.mp h
    refine ⟨s'.withStorage ms, ?_, State.sameButStale_withStorage hs hcont hi (exec_carried hr).ringChange⟩
    rw [exec_withStorage hi, hr]
    rfl

theorem runCommand_stale {c : Command} (h : s.sameButStale t) (hs : s.buffersOk) (ht : t.buffersOk)
    (hr : runCommand c s = .next s') : ∃ t', runCommand c t = .next t' ∧ s'.sameButStale t' := by
  unfold runCommand at hr ⊢
  split at hr
  · exact exec_stale h hs ht hr
  · cases hr
  all_goals
    cases hr
    exact ⟨_, rfl, h.respond _⟩

theorem acceptStep_stale {p : Port} (h : s.sameButStale t) (hs : s.buffersOk) (ht : t.buffersOk)
    (hr : acceptStep p s = .next s') : ∃ t', acceptStep p t = .next t' ∧ s'.sameButStale t' := by
  have hpend : t.pend p = s.pend p := by rw [h.1]; cases p <;> rfl
  have hxfer : t.xfer p = s.xfer p := by rw [h.1]; cases p <;> rfl
  unfold acceptStep at hr ⊢
  rw [hpend, hxfer]
  split at hr
  · cases hr
    exact ⟨t, rfl, h⟩
  · next c rest _ =>
    split at hr
    · next idle =>
      simp only [if_pos idle]
      refine runCommand_stale (h.taking p rest) ?_ ?_ hr
      · simpa [State.buffersOk] using hs
      · simpa [State.buffersOk] using ht
    · next busy =>
      cases hr
      exact ⟨t, if_neg busy, h⟩

/-- A re-test leaves the buffers alone or empties them. -/
theorem State.retest_ringChange (s : State) (w : Nat) (x : Wait) (d : Dir) :
    RingChange Opc.acquire (s.depth d) (s.rb d) ((s.retest w x).rb d) := by
  unfold State.retest
  split
  · unfold State.retestWatch
    split
    all_goals exact .of_eq (by simp) (by simp) d
  · unfold State.retestAcquire
    split
    · exact .of_eq rfl rfl d
    · rw [State.send_rb]
      have hacq := (s.setSlot w none).acquisition_ringChange (o := Opc.acquire) rfl d
      rwa [State.setSlot_depth, State.setSlot_rb] at hacq

theorem retestStep_ringChange (s : State) (w : Nat) (d : Dir) :
    RingChange Opc.acquire (s.depth d) (s.rb d) ((retestStep w s).rb d) := by
  unfold retestStep
  split
  · split
    · exact State.retest_ringChange s w _ d
    · exact .same
  · exact .same

theorem retestStep_stale (h : s.sameButStale t) (hs : s.buffersOk) (w : Nat) :
    (retestStep w s).sameButStale (retestStep w t) := by
  obtain ⟨ms, rfl, hcont⟩ := State.sameButStale_iff.mp h
  rw [retestStep_withStorage]
  exact State.sameButStale_withStorage hs hcont (by decide) (retestStep_ringChange s w)

theorem copyStep_stale {p : Port} {job : XferJob} (h : s.sameButStale t) (hs : s.buffersOk) (ht : t.buffersOk)
    (hr : copyStep p job s = .next s') : ∃ t', copyStep p job t = .next t' ∧ s'.sameButStale t' := by
  unfold copyStep at hr ⊢
  split at hr
  · split at hr
    · next hp =>
      cases hr
      obtain ⟨c, hc, hbc⟩ := (h.rb .rx).pushBulk (hs.rb .rx).1 (hs.rb .rx).2 (h.depth .rx ▸ (ht.rb .rx).2) hp
      have hc' : t.rx.pushBulk job.payload = _ := hc
      simp only [hc']
      exact ⟨_, rfl, (h.setRb .rx hbc).setXfer p _⟩
    · cases hr
  · split at hr
    · next hp =>
      cases hr
      obtain ⟨c, hc, hbc⟩ := (h.rb .rx).popBulk (hs.rb .rx).1 hp
      have hc' : t.rx.popBulk job.a.toNat = _ := hc
      simp only [hc']
      exact ⟨_, rfl, (h.setRb .rx hbc).setXfer p _⟩
    · cases hr

theorem foldStep_stale (h : s.sameButStale t) (p : Port) (job : XferJob) (n : Nat) (moved : List Byte) :
    (foldStep p job n moved s).sameButStale (foldStep p job n moved t) := by
  refine h.update (fun _ => foldStep_withStorage p job n moved s) fun d => ?_
  cases d
  · show (foldStep p job n moved s).rx = s.rx
    simp [foldStep, State.fold]
  · show (foldStep p job n moved s).tx = s.tx
    simp [foldStep, State.fold]

theorem transferStep_stale {p : Port} (h : s.sameButStale t) (hs : s.buffersOk) (ht : t.buffersOk)
    (hr : transferStep p s = .next s') : ∃ t', transferStep p t = .next t' ∧ s'.sameButStale t' := by
  have hxfer : t.xfer p = s.xfer p := by rw [h.1]; cases p <;> rfl
  unfold transferStep at hr ⊢
  rw [hxfer]
  split at hr
  · cases hr
    exact ⟨t, rfl, h⟩
  · exact copyStep_stale h hs ht hr
  · cases hr
    exact ⟨_, rfl, foldStep_stale h p ..⟩

/-- Two states that differ in stale bytes take a turn alike. -/
theorem takeTurn_stale {turn : Turn} (h : s.sameButStale t) (hs : s.buffersOk) (ht : t.buffersOk)
    (hr : takeTurn turn s = .next s') : ∃ t', takeTurn turn t = .next t' ∧ s'.sameButStale t' := by
  cases turn with
  | present p c =>
    cases hr
    have hpend : t.pend p = s.pend p := by rw [h.1]; cases p <;> rfl
    exact ⟨_, rfl, hpend ▸ h.setPend p _⟩
  | accept p => exact acceptStep_stale h hs ht hr
  | retest w =>
    cases hr
    exact ⟨_, rfl, retestStep_stale h hs w⟩
  | transfer p => exact transferStep_stale h hs ht hr
  | reset =>
    cases hr
    have hreset : hardwareReset t = hardwareReset s := by rw [h.1]; rfl
    exact ⟨_, rfl, hreset ▸ ⟨rfl, ⟨rfl, rfl⟩, rfl, rfl⟩⟩

/-- Two states that differ in stale bytes step alike. -/
theorem step_stale (h : s.sameButStale t) (hs : s.buffersOk) (ht : t.buffersOk) (hr : step s = .next s') :
    ∃ t', step t = .next t' ∧ s'.sameButStale t' := by
  have hsched : t.schedule = s.schedule := by rw [h.1]
  have hfree : t.freeTurn = s.freeTurn := by rw [h.1]; rfl
  unfold step at hr ⊢
  rw [hsched, hfree]
  split at hr
  · next turn rest _ => exact takeTurn_stale (h.schedule rest) hs ht hr
  · split at hr
    · exact takeTurn_stale h hs ht hr
    · cases hr
      exact ⟨t, rfl, h⟩

/-- Settles O59: instructions that move no byte commute with a change of the storage, and those that move bytes move
buffered ones, which the two states share. -/
theorem staleBytesAreInvisible : Obligations.StaleBytesAreInvisible := fun _ _ _ _ hs ht h hr => step_stale h hs ht hr

end Sys2Proof.Machine
end

section
/-! PROOFS. Whose turn it is, that a port's turn carries out the decoded command, and that the engine left alone comes to
rest (20_memory.md R62, R66, R67, R76; 41_linestate.md R166). -/

namespace Sys2Proof.Machine

variable {s t : State}

/-! ### Whose turn it is (R66, R74) -/

theorem firstAwake_eq_none_iff (xs : List (Option Wait)) (w : Nat) :
    firstAwake w xs = none ↔ ∀ x, some x ∈ xs → x.awake = false := by
  induction xs generalizing w with
  | nil => simp [firstAwake]
  | cons o xs ih =>
    cases o with
    | none => simp [firstAwake, ih]
    | some y => cases hy : y.awake <;> simp [firstAwake, ih, hy]

theorem firstAwake_eq_some {xs : List (Option Wait)} {w v : Nat} (h : firstAwake w xs = some v) :
    ∃ k x, v = w + k ∧ xs[k]? = some (some x) ∧ x.awake = true := by
  induction xs generalizing w with
  | nil => cases h
  | cons o xs ih =>
    have later : firstAwake (w + 1) xs = some v →
        ∃ k x, v = w + k ∧ (o :: xs)[k]? = some (some x) ∧ x.awake = true := by
      intro h
      obtain ⟨k, x, hv, hx, awake⟩ := ih h
      exact ⟨k + 1, x, by omega, hx, awake⟩
    cases o with
    | none => exact later h
    | some y =>
      unfold firstAwake at h
      split at h
      · next awake => exact ⟨0, y, (Option.some.inj h).symm, rfl, awake⟩
      · exact later h

/-- What `firstAwake` finds among the slots is a slot whose wait is awake. -/
theorem firstAwake_slot {w : Nat} (h : firstAwake 0 s.slots = some w) :
    ∃ x, s.slot w = some x ∧ x.awake = true := by
  obtain ⟨k, x, rfl, hx, awake⟩ := firstAwake_eq_some h
  exact ⟨x, by rw [State.slot, Nat.zero_add, hx]; rfl, awake⟩

/-- On an engine at rest a command waiting on port H goes next. -/
theorem State.freeTurn_settled (rest : s.settled) (waiting : s.pendH ≠ []) : s.freeTurn = some (.accept .H) := by
  obtain ⟨idleH, idleW, asleep⟩ := rest
  unfold State.freeTurn
  rw [if_neg (not_not.mpr idleH), if_neg (not_not.mpr idleW), (firstAwake_eq_none_iff s.slots 0).mpr asleep]
  exact if_pos waiting

theorem step_scheduled {turn : Turn} {turns : List Turn} (h : s.schedule = turn :: turns) :
    step s = takeTurn turn { s with schedule := turns } := by
  rw [step, h]

theorem step_free {turn : Turn} (empty : s.schedule = []) (free : s.freeTurn = some turn) : step s = takeTurn turn s := by
  rw [step, empty, free]

/-! ### The turn of a port (R62, R67) -/

/-- The rest of the schedule is no part of what a port or its transfer looks at. -/
theorem State.withSchedule_pend (s : State) (turns : List Turn) (p : Port) :
    ({ s with schedule := turns } : State).pend p = s.pend p := by cases p <;> rfl

theorem State.withSchedule_xfer (s : State) (turns : List Turn) (p : Port) :
    ({ s with schedule := turns } : State).xfer p = s.xfer p := by cases p <;> rfl

theorem runCommand_decoded {c : Command} {i : Instr} (h : decode c.frame c.payload = .ok i) :
    runCommand c s = exec i s := by
  rw [runCommand, h]

/-- A port that is free carries out the instruction its first command decodes to. -/
theorem acceptStep_decoded {p : Port} {c : Command} {rest : List Command} {i : Instr} (first : s.pend p = c :: rest)
    (idle : s.xfer p = .idle) (h : decode c.frame c.payload = .ok i) : acceptStep p s = exec i (s.taking p rest) := by
  rw [acceptStep, first]
  exact (if_pos idle).trans (runCommand_decoded h)

/-- A port with a transfer in flight accepts nothing. -/
theorem acceptStep_busy {p : Port} (busy : s.xfer p ≠ .idle) : acceptStep p s = .next s := by
  unfold acceptStep
  split
  · rfl
  · exact if_neg busy

/-- Settles O7: the turn is the scheduled one or, on an engine at rest, port H's; and a port whose transfer is in flight
lets its turn pass. -/
theorem stepRunsTheDecodedInstruction : Obligations.StepRunsTheDecodedInstruction := by
  refine ⟨fun s p c cs turns i sched first idle hi => ?_, fun s c cs i empty first idleH idleW asleep hi => ?_,
    fun s p turns sched busy => ?_⟩
  · rw [step_scheduled sched]
    exact acceptStep_decoded ((s.withSchedule_pend turns p).trans first) ((s.withSchedule_xfer turns p).trans idle) hi
  · have waiting : s.pendH ≠ [] := by rw [first]; exact List.cons_ne_nil c cs
    rw [step_free empty (State.freeTurn_settled ⟨idleH, idleW, asleep⟩ waiting)]
    exact acceptStep_decoded (p := .H) first idleH hi
  · rw [step_scheduled sched]
    exact acceptStep_busy ((s.withSchedule_xfer turns p).trans_ne busy)

/-! ### Left alone -/

/-- Nothing scheduled and no command waiting. -/
def State.leftAlone (s : State) : Prop := s.schedule = [] ∧ s.pendH = [] ∧ s.pendW = []

theorem Update.leftAlone (h : Update s t) (alone : s.leftAlone) : t.leftAlone := by
  obtain ⟨sched, pendH, pendW⟩ := alone
  exact ⟨h.schedule.trans sched, List.subset_nil.mp (pendH ▸ h.pend_subset .H),
    List.subset_nil.mp (pendW ▸ h.pend_subset .W)⟩

/-- Left alone, the engine is at rest or steps a transfer in flight, or else re-tests a woken wait. -/
theorem State.leftAlone.turn (alone : s.leftAlone) :
    s.settled ∨ (∃ p, s.xfer p ≠ .idle ∧ step s = transferStep p s) ∨
    (s.xferH = .idle ∧ s.xferW = .idle ∧
      ∃ w x, s.slot w = some x ∧ x.awake = true ∧ step s = .next (s.retest w x)) := by
  obtain ⟨sched, -, -⟩ := alone
  by_cases idleH : s.xferH = .idle
  · by_cases idleW : s.xferW = .idle
    · cases first : firstAwake 0 s.slots with
      | none => exact .inl ⟨idleH, idleW, (firstAwake_eq_none_iff s.slots 0).mp first⟩
      | some w =>
        obtain ⟨x, slot, awake⟩ := firstAwake_slot first
        refine .inr (.inr ⟨idleH, idleW, w, x, slot, awake, ?_⟩)
        rw [step_free sched (turn := .retest w) (by simp [State.freeTurn, idleH, idleW, first])]
        simp [takeTurn, retestStep, slot, awake]
    · exact .inr (.inl ⟨.W, idleW, step_free (turn := .transfer .W) sched (by simp [State.freeTurn, idleH, idleW])⟩)
  · exact .inr (.inl ⟨.H, idleH, step_free (turn := .transfer .H) sched (by simp [State.freeTurn, idleH])⟩)

/-! ### The steps that transfers still take (R72) -/

/-- The steps a transfer still takes: its copy and its fold. -/
def Xfer.stepsLeft : Xfer → Nat
  | .idle => 0
  | .copy _ => 2
  | .fold _ _ _ => 1

/-- The steps the transfers of both ports still take. -/
def State.transferStepsLeft (s : State) : Nat := s.xferH.stepsLeft + s.xferW.stepsLeft

theorem Xfer.stepsLeft_le (x : Xfer) : x.stepsLeft ≤ 2 := by
  cases x <;> simp [Xfer.stepsLeft]

theorem Xfer.stepsLeft_eq_zero_iff {x : Xfer} : x.stepsLeft = 0 ↔ x = .idle := by
  cases x <;> simp [Xfer.stepsLeft]

theorem State.transferStepsLeft_eq_zero_iff : s.transferStepsLeft = 0 ↔ s.xferH = .idle ∧ s.xferW = .idle := by
  rw [State.transferStepsLeft, Nat.add_eq_zero_iff, Xfer.stepsLeft_eq_zero_iff, Xfer.stepsLeft_eq_zero_iff]

theorem State.transferStepsLeft_congr (xferH : t.xferH = s.xferH) (xferW : t.xferW = s.xferW) :
    t.transferStepsLeft = s.transferStepsLeft := by
  rw [State.transferStepsLeft, State.transferStepsLeft, xferH, xferW]

theorem State.transferStepsLeft_setXfer (s : State) (p : Port) (x : Xfer) :
    (s.setXfer p x).transferStepsLeft + (s.xfer p).stepsLeft = s.transferStepsLeft + x.stepsLeft := by
  cases p
  all_goals
    simp only [State.setXfer, State.xfer, State.transferStepsLeft]
    omega

/-- In a state whose buffers meet their invariants the copy goes through (R61, R263, R266). -/
theorem copyStep_succeeds (hb : s.buffersOk) (p : Port) (job : XferJob) :
    ∃ b n moved, copyStep p job s = .next (({ s with rx := b } : State).setXfer p (.fold job n moved)) := by
  obtain ⟨hrx, -, hmem, -⟩ := hb
  unfold copyStep
  cases job.op with
  | enqRx =>
    obtain ⟨b, hpush, -⟩ := RingBuffer.pushBulk_spec hrx hmem job.payload
    exact ⟨b, _, _, by rw [hpush]⟩
  | deqRx =>
    obtain ⟨b, hpop, -⟩ := RingBuffer.popBulk_spec hrx job.a.toNat
    exact ⟨b, _, _, by rw [hpop]⟩

/-- The step of a transfer in flight goes through and leaves one step fewer. -/
theorem transferStep_progress (hb : s.buffersOk) {p : Port} (busy : s.xfer p ≠ .idle) :
    ∃ t, transferStep p s = .next t ∧ t.transferStepsLeft + 1 = s.transferStepsLeft := by
  unfold transferStep
  cases hx : s.xfer p with
  | idle => exact absurd hx busy
  | copy job =>
    obtain ⟨b, n, moved, hcopy⟩ := copyStep_succeeds hb p job
    refine ⟨_, hcopy, ?_⟩
    have copied := ({ s with rx := b } : State).transferStepsLeft_setXfer p (.fold job n moved)
    have same : ({ s with rx := b } : State).xfer p = .copy job := by rw [← hx]; cases p <;> rfl
    rw [same] at copied
    exact Nat.succ.inj copied
  | fold job n moved =>
    refine ⟨_, rfl, ?_⟩
    have folded := s.transferStepsLeft_setXfer p .idle
    rw [hx] at folded
    have kept : (foldStep p job n moved s).transferStepsLeft = (s.setXfer p .idle).transferStepsLeft :=
      State.transferStepsLeft_congr (by simp [foldStep, State.fold]) (by simp [foldStep, State.fold])
    rw [kept]
    exact folded

/-! ### The re-tests that woken waits still take (R166) -/

/-- A slot whose wait is awake. -/
def slotAwake : Option Wait → Bool
  | some x => x.awake
  | none => false

/-- How many waits are awake. -/
def State.awakeWaits (s : State) : Nat := s.slots.countP slotAwake

/-- A bound on the re-tests to come while nothing else happens: each puts one wait to sleep or ends it, but for the one
that acquires the line, which can wake all others and after which no wait acquires. -/
def State.retestsLeft (s : State) : Nat :=
  s.awakeWaits + if hasBit s.line Bit.acquired then 0 else s.params.nwatch

theorem State.retestsLeft_le (hs : s.slotsOk) : s.retestsLeft ≤ 2 * s.params.nwatch := by
  have all : s.awakeWaits ≤ s.params.nwatch := hs ▸ List.countP_le_length
  unfold State.retestsLeft
  split <;> omega

/-- A woken wait that is ended or put to sleep is one fewer awake. -/
theorem State.awakeWaits_set {w : Nat} {x : Wait} (slot : s.slot w = some x) (awake : x.awake = true) {o : Option Wait}
    (ho : slotAwake o = false) (ht : t.slots = s.slots.set w o) : t.awakeWaits + 1 = s.awakeWaits := by
  have hw := State.slot_lt slot
  have before : slotAwake s.slots[w] = true := by
    rw [(List.getElem?_eq_some_iff.mp (State.slot_eq_some slot)).2]
    exact awake
  have counted : 0 < s.slots.countP slotAwake := List.countP_pos_iff.mpr ⟨some x, mem_of_slot slot, awake⟩
  rw [State.awakeWaits, State.awakeWaits, ht, List.countP_set hw, if_pos before, ho]
  simp only [Bool.false_eq_true, if_false]
  omega

/-- A free slot is not among the woken ones. -/
theorem State.awakeWaits_lt (free : none ∈ s.slots) : s.awakeWaits < s.slots.length :=
  lt_of_le_of_ne List.countP_le_length fun all => Bool.noConfusion (List.countP_eq_length.mp all none free)

/-- A re-test that leaves `State` alone and its own wait asleep or gone takes one off the count. -/
theorem State.retestsLeft_set {w : Nat} {x : Wait} (slot : s.slot w = some x) (awake : x.awake = true) {o : Option Wait}
    (ho : slotAwake o = false) (ht : t.slots = s.slots.set w o) (line : t.line = s.line) (params : t.params = s.params) :
    t.retestsLeft < s.retestsLeft := by
  have fewer := State.awakeWaits_set slot awake ho ht
  rw [State.retestsLeft, State.retestsLeft, line, params]
  omega

/-- An acquisition sets `ACQUIRED` (R153). -/
theorem State.acquisition_acquired (s : State) : hasBit s.acquisition.line Bit.acquired := by
  rw [hasBit_acquired_iff, State.acquisition, State.changeState_line, mergeBits_all, BitVec.getLsbD_or]
  exact Bool.or_eq_true_iff.mpr (.inl (by decide))

/-- An acquisition keeps a free slot free. -/
theorem State.none_mem_acquisition (free : none ∈ s.slots) : none ∈ s.acquisition.slots := by
  have kept : none ∈ s.rebuild.slots := free
  rw [State.acquisition, State.changeState_slots]
  split
  · exact List.mem_map.mpr ⟨none, kept, rfl⟩
  · exact kept

/-- The re-test that acquires the line leaves at most the other slots awake, where a further acquisition was allowed for. -/
theorem State.retestsLeft_acquisition (hs : s.slotsOk) {w : Nat} {x : Wait} (slot : s.slot w = some x)
    (released : ¬ hasBit s.line Bit.acquired) : (s.setSlot w none).acquisition.retestsLeft < s.retestsLeft := by
  have free : none ∈ (s.setSlot w none).slots := List.mem_set (State.slot_lt slot) none
  have fewer := State.awakeWaits_lt (State.none_mem_acquisition free)
  have length : (s.setSlot w none).acquisition.slots.length = s.params.nwatch := by
    rw [State.acquisition, State.changeState_slots_length]
    exact State.setSlot_slotsOk hs w none
  rw [State.retestsLeft, State.retestsLeft, if_pos (State.acquisition_acquired _), if_neg released]
  omega

theorem State.retestsLeft_send (s : State) (p : Port) (r : Response) : (s.send p r).retestsLeft = s.retestsLeft := by
  simp only [State.retestsLeft, State.awakeWaits, State.send_slots, State.send_line, State.send_params]

/-- A re-test leaves fewer re-tests to come. -/
theorem State.retest_progress (hs : s.slotsOk) {w : Nat} {x : Wait} (slot : s.slot w = some x) (awake : x.awake = true) :
    (s.retest w x).retestsLeft < s.retestsLeft := by
  have completed : ∀ k d0, (s.complete w x k d0).retestsLeft < s.retestsLeft := fun k d0 =>
    State.retestsLeft_set (o := none) slot awake rfl (by simp) (by simp) (by simp)
  have reparked : (s.repark w x).retestsLeft < s.retestsLeft :=
    State.retestsLeft_set slot awake rfl (s.repark_slots w x) rfl rfl
  unfold State.retest
  split
  · unfold State.retestWatch
    split
    · exact completed ..
    · exact completed ..
    · exact reparked
  · unfold State.retestAcquire
    split
    · exact reparked
    · next released =>
      rw [State.retestsLeft_send]
      exact State.retestsLeft_acquisition hs slot released

/-- A re-test starts no transfer. -/
theorem State.retest_xfer (s : State) (w : Nat) (x : Wait) :
    (s.retest w x).xferH = s.xferH ∧ (s.retest w x).xferW = s.xferW := by
  unfold State.retest
  split
  · unfold State.retestWatch
    split <;> simp
  · unfold State.retestAcquire
    split <;> simp [State.acquisition]

/-! ### Coming to rest (R76) -/

/-- A bound on the steps to rest: those of the transfers, which come first and can wake every wait, and then the
re-tests. -/
def State.stepsToRest (s : State) : Nat :=
  s.transferStepsLeft + if s.transferStepsLeft = 0 then s.retestsLeft else 2 * s.params.nwatch

theorem State.stepsToRest_le (hs : s.slotsOk) : s.stepsToRest ≤ 4 + 2 * s.params.nwatch := by
  have retests := State.retestsLeft_le hs
  have transferH := s.xferH.stepsLeft_le
  have transferW := s.xferW.stepsLeft_le
  unfold State.stepsToRest
  split
  · omega
  · unfold State.transferStepsLeft
    omega

/-- Left alone, a good state that is not at rest takes a step towards it. -/
theorem State.Inv.progress (hs : s.Inv) (alone : s.leftAlone) :
    s.settled ∨ ∃ t, Machine.step s = .next t ∧ t.leftAlone ∧ t.stepsToRest < s.stepsToRest := by
  rcases alone.turn with rest | ⟨p, busy, hstep⟩ | ⟨idleH, idleW, w, x, slot, awake, hstep⟩
  · exact .inl rest
  · obtain ⟨t, ht, fewer⟩ := transferStep_progress hs.buffers busy
    rw [ht] at hstep
    refine .inr ⟨t, hstep, (transferStep_updates ht).keeps Update.leftAlone alone, ?_⟩
    have retests := State.retestsLeft_le (hs.step hstep).slots
    rw [step_params hstep] at retests
    rw [State.stepsToRest, State.stepsToRest, step_params hstep, if_neg (c := s.transferStepsLeft = 0) (by omega)]
    split <;> omega
  · refine .inr ⟨_, hstep, (State.retest_updates slot awake).keeps Update.leftAlone alone, ?_⟩
    have none_left : s.transferStepsLeft = 0 := State.transferStepsLeft_eq_zero_iff.mpr ⟨idleH, idleW⟩
    obtain ⟨xferH, xferW⟩ := s.retest_xfer w x
    rw [State.stepsToRest, State.stepsToRest, State.transferStepsLeft_congr xferH xferW, none_left]
    simpa using State.retest_progress hs.slots slot awake

theorem run_succ_of_step {k : Nat} (h : step s = .next t) : Host.Core.run core (k + 1) s = Host.Core.run core k t := by
  have hcore : core.step s = .next t := h
  simp only [Host.Core.run, hcore]

/-- A run that ends at rest with nothing scheduled and nothing waiting, within a number of steps. -/
def State.restsWithin (s : State) (n : Nat) : Prop :=
  ∃ k t, k ≤ n ∧ Host.Core.run core k s = .next t ∧ t.settled ∧ t.leftAlone

theorem State.Inv.restsWithin (hs : s.Inv) (alone : s.leftAlone) {n : Nat} (hn : s.stepsToRest ≤ n) :
    s.restsWithin n := by
  induction n generalizing s with
  | zero =>
    rcases hs.progress alone with rest | ⟨t, -, -, fewer⟩
    · exact ⟨0, s, le_rfl, rfl, rest, alone⟩
    · omega
  | succ n ih =>
    rcases hs.progress alone with rest | ⟨t, hstep, alone', fewer⟩
    · exact ⟨0, s, Nat.zero_le _, rfl, rest, alone⟩
    · obtain ⟨k, u, hk, hrun, rest, quiet⟩ := ih (hs.step hstep) alone' (by omega)
      exact ⟨k + 1, u, Nat.succ_le_succ hk, (run_succ_of_step hstep).trans hrun, rest, quiet⟩

/-- Settles O60, by induction on a bound of the steps to rest that every step left alone lowers. -/
theorem everythingSettles : Obligations.EverythingSettles := by
  intro s hs sched pendH pendW
  obtain ⟨k, t, hk, hrun, rest, quiet⟩ := hs.restsWithin ⟨sched, pendH, pendW⟩ (State.stepsToRest_le hs.slots)
  exact ⟨k, t, hk, hrun, rest, quiet⟩

end Sys2Proof.Machine
end

section
/-! PROOFS. What the decoder reads from a frame, said once for every OPC and every event kind, and the statements about the
encoding of commands that follow from it (30_encoding.md R90 to R98). -/

namespace Sys2Proof.Machine

/-! ### The fields of an instruction -/

/-- OPC and SEL name no event kind (R97, R212, R252). -/
abbrev namesNoKind (o l : Byte) : Prop := (o = 0x30#8 ∨ o = 0x31#8) ∧ noKind l

/-- SEL has bits that the OPC does not define (R98). -/
abbrev badSelector (o l : Byte) : Prop :=
  ((o ≤ 0x0B#8 ∨ o = 0x10#8) ∧ 0x02#8 ≤ l) ∨
  (((0x11#8 ≤ o ∧ o ≤ 0x18#8) ∨ (0x20#8 ≤ o ∧ o ≤ 0x22#8)) ∧ l ≠ 0x00#8)

/-- OPC and SEL name an operation (R96, R97, R98). -/
abbrev namesOperation (o l : Byte) : Prop := isOpcode o ∧ ¬ badSelector o l ∧ ¬ namesNoKind o l

theorem malformed_iff {f : Frame} :
    malformed f ↔ ¬ isOpcode (opcOf f) ∨ rsvOf f ≠ 0x00#8 ∨ badSelector (opcOf f) (selOf f) := Iff.rfl

theorem noKind_iff {l : Byte} : noKind l ↔ l.toNat = 0x0F ∨ 0x16 ≤ l.toNat := by
  simp [noKind, ← BitVec.toNat_inj, BitVec.le_def]

theorem isOpcode_iff {o : Byte} : isOpcode o ↔ o.toNat ≤ 0x0B ∨ (0x10 ≤ o.toNat ∧ o.toNat ≤ 0x18) ∨
    (0x20 ≤ o.toNat ∧ o.toNat ≤ 0x22) ∨ o.toNat = 0x30 ∨ o.toNat = 0x31 := by
  simp [isOpcode, ← BitVec.toNat_inj, BitVec.le_def]

/-- EXEC and REQ define every bit of SEL. -/
theorem event_defines_selector {o : Byte} (l : Byte) (h : o = 0x30#8 ∨ o = 0x31#8) :
    isOpcode o ∧ ¬ badSelector o l := by
  rcases h with rfl | rfl <;> exact ⟨by decide, by simp⟩

theorem instr_namesOperation (i : Instr) : namesOperation i.opc i.sel := by
  cases i with
  | rbInit d | rbPush d | rbPop d | rbPushbulk d | rbPopbulk d | rbFree d | rbUsed d | rbCap d | rbStatus d | rbBegindr d
  | rbEnddr d | rbClose d => cases d <;> exact of_decide_eq_true rfl
  | acquire blocking => cases blocking <;> exact of_decide_eq_true rfl
  | _ => exact of_decide_eq_true rfl

theorem instr_payload_eq_nil {i : Instr} (h : ¬ carriesPayload i.opc) : i.payload = [] := by
  cases i with
  | rbPushbulk | enqRx | enqTx => exact absurd (of_decide_eq_true rfl) h
  | _ => rfl

/-- The operand `A` of an instruction with a payload announces its length (R92). -/
theorem instr_a_eq_length {i : Instr} (h : carriesPayload i.opc) : i.a = BitVec.ofNat 32 i.payload.length := by
  cases i with
  | rbPushbulk | enqRx | enqTx => rfl
  | _ => exact absurd h (of_decide_eq_true rfl)

theorem instr_wellFormed_iff {i : Instr} : i.wellFormed ↔ payloadFits i.payload := by
  cases i with
  | rbPushbulk | enqRx | enqTx => exact Iff.rfl
  | _ => exact iff_of_true trivial (Nat.two_pow_pos 32)

/-! ### What the decoder reads from the fields -/

/-- The fields of a frame, and its payload, are those of an instruction as far as its operation names them (R91, R96). The
length that `A` announces of a payload is not among them. -/
structure FieldsOf (i : Instr) (o l : Byte) (tag : Tag) (a b : Word) (bytes : List Byte) : Prop where
  opc : i.opc = o
  sel : i.sel = l
  tag : i.tag = tag
  operandA : namesA o → ¬ carriesPayload o → i.a = a
  operandB : namesB o → i.b = b
  payload : carriesPayload o → i.payload = bytes

/-- What the decoder can read from the fields of a frame: one case for each reason to refuse them, and one for an
instruction. -/
inductive Reading (o l : Byte) (tag : Tag) (a b : Word) (bytes : List Byte) : Except DecodeError Instr → Prop
  | unknownOpcode (unnamed : ¬ isOpcode o) : Reading o l tag a b bytes (.error .unknownOpcode)
  | badSelector (bad : badSelector o l) : Reading o l tag a b bytes (.error .badSelector)
  | unknownKind (unnamed : namesNoKind o l) : Reading o l tag a b bytes (.error .unknownKind)
  | instr (i : Instr) (fields : FieldsOf i o l tag a b bytes) : Reading o l tag a b bytes (.ok i)

section Fields

variable {o l : Byte} {tag : Tag} {a b : Word} {bytes : List Byte}

theorem byte_eq_of_toNat {x : Byte} {n : Nat} (h : x.toNat = n) : x = BitVec.ofNat 8 n := by
  rw [← h, BitVec.ofNat_toNat, BitVec.setWidth_eq]

theorem dirOfSel_cases (l : Byte) :
    (∃ d, l = selOfDir d ∧ dirOfSel l = some d) ∨ (0x02#8 ≤ l ∧ dirOfSel l = none) := by
  by_cases h0 : l = 0x00#8
  · exact .inl ⟨.rx, h0, by rw [h0]; rfl⟩
  · by_cases h1 : l = 0x01#8
    · exact .inl ⟨.tx, h1, by rw [h1]; rfl⟩
    · exact .inr ⟨by bv_omega, by rw [dirOfSel, if_neg h0, if_neg h1]⟩

theorem blockingOfSel_cases (l : Byte) :
    (∃ k, l = selOfBlocking k ∧ blockingOfSel l = some k) ∨ (0x02#8 ≤ l ∧ blockingOfSel l = none) := by
  by_cases h0 : l = 0x00#8
  · exact .inl ⟨false, h0, by rw [h0]; rfl⟩
  · by_cases h1 : l = 0x01#8
    · exact .inl ⟨true, h1, by rw [h1]; rfl⟩
    · exact .inr ⟨by bv_omega, by rw [blockingOfSel, if_neg h0, if_neg h1]⟩

theorem Reading.ring {op : Dir → Instr} (ho : o ≤ 0x0B#8)
    (fields : ∀ d, FieldsOf (op d) o (selOfDir d) tag a b bytes) :
    Reading o l tag a b bytes (decodeRing l op) := by
  rcases dirOfSel_cases l with ⟨d, rfl, h⟩ | ⟨hl, h⟩ <;> rw [decodeRing, h]
  · exact .instr (op d) (fields d)
  · exact .badSelector (.inl ⟨.inl ho, hl⟩)

theorem Reading.plain {i : Instr} (ho : (0x11#8 ≤ o ∧ o ≤ 0x18#8) ∨ (0x20#8 ≤ o ∧ o ≤ 0x22#8))
    (fields : FieldsOf i o 0x00#8 tag a b bytes) : Reading o l tag a b bytes (decodePlain l i) := by
  unfold decodePlain
  split
  · next h => exact .instr i (h ▸ fields)
  · next h => exact .badSelector (.inr ⟨ho, h⟩)

theorem Reading.acquire : Reading 0x10#8 l tag a b bytes (decodeAcquire l tag) := by
  rcases blockingOfSel_cases l with ⟨k, rfl, h⟩ | ⟨hl, h⟩ <;> rw [decodeAcquire, h]
  · exact .instr (.acquire k tag) ⟨rfl, rfl, rfl, by simp, by simp, by simp⟩
  · exact .badSelector (.inl ⟨.inr rfl, hl⟩)

theorem Reading.exec : Reading 0x30#8 l tag a b bytes (decodeExec l tag a) := by
  unfold decodeExec
  split
  case h_22 => exact .unknownKind ⟨.inl rfl, noKind_iff.mpr (by simp only [imp_false] at *; omega)⟩
  all_goals
    next hl =>
      obtain rfl := byte_eq_of_toNat hl
      exact .instr _ ⟨rfl, rfl, rfl, fun _ _ => rfl, by simp, by simp⟩

theorem Reading.req : Reading 0x31#8 l tag a b bytes (decodeReq l tag) := by
  unfold decodeReq
  split
  case h_22 => exact .unknownKind ⟨.inr rfl, noKind_iff.mpr (by simp only [imp_false] at *; omega)⟩
  all_goals
    next hl =>
      obtain rfl := byte_eq_of_toNat hl
      exact .instr _ ⟨rfl, rfl, rfl, by simp, by simp, by simp⟩

end Fields

/-- Every OPC is one of the table of R96, and then its row says how SEL is read, or it is unknown. -/
theorem decodeFields_reading (o l : Byte) (tag : Tag) (a b : Word) (bytes : List Byte) :
    Reading o l tag a b bytes (decodeFields o l tag a b bytes) := by
  unfold decodeFields
  split
  -- cases 1 to 26 are the rows of R96, in their order
  case h_27 => exact .unknownOpcode (isOpcode_iff.not.mpr (by simp only [imp_false] at *; omega))
  all_goals
    rename_i ho
    obtain rfl := byte_eq_of_toNat ho
  -- the rows whose SEL is a blocking flag, a kind, a direction; in the others it is zero
  case h_13 => exact .acquire
  case h_25 => exact .exec
  case h_26 => exact .req
  case h_1 | h_2 | h_3 | h_4 | h_5 | h_6 | h_7 | h_8 | h_9 | h_10 | h_11 | h_12 =>
    exact .ring (by decide) fun d => ⟨rfl, rfl, rfl, by simp [Instr.a], by simp, by simp [Instr.payload]⟩
  all_goals exact .plain (by decide) ⟨rfl, rfl, rfl, by simp [Instr.a], by simp [Instr.b], by simp [Instr.payload]⟩

/-- The fields of an instruction are read as that instruction, whatever stands where its operation names nothing. -/
theorem FieldsOf.decodeFields {i : Instr} {o l : Byte} {tag : Tag} {a b : Word} {bytes : List Byte}
    (h : FieldsOf i o l tag a b bytes) : decodeFields o l tag a b bytes = .ok i := by
  obtain ⟨rfl, rfl, rfl, ha, hb, hp⟩ := h
  cases i with
  | rbPop d | rbFree d | rbUsed d | rbCap d | rbStatus d | rbClose d => cases d <;> rfl
  | rbInit d | rbPush d | rbPopbulk d | rbBegindr d | rbEnddr d =>
    obtain rfl := ha (of_decide_eq_true rfl) (of_decide_eq_true rfl)
    cases d <;> rfl
  | rbPushbulk d =>
    obtain rfl := hp (of_decide_eq_true rfl)
    cases d <;> rfl
  | acquire blocking => cases blocking <;> rfl
  | enqRx | enqTx =>
    obtain rfl := hp (of_decide_eq_true rfl)
    rfl
  | setstate | watchstate | deqRx =>
    obtain rfl := ha (of_decide_eq_true rfl) (of_decide_eq_true rfl)
    obtain rfl := hb (of_decide_eq_true rfl)
    rfl
  | execEvActive | execEvDataRate | execEvDataSize | execEvStopBits | execEvTxParity | execEvRxParity | execEvXonByte
  | execEvXoffByte | execEvSpecialByte | execEvValidDataByte | execEvMinLatency | execEvDataLatency | execEvCharLatency
  | execEvFlowControl | execEvLineBreak | execEvRxqSize | execEvTxqSize | execEvRxqHighWater | execEvRxqLowWater
  | execEvTxqHighWater | execEvTxqLowWater =>
    obtain rfl := ha (of_decide_eq_true rfl) (of_decide_eq_true rfl)
    rfl
  | _ => rfl

/-! ### Frames -/

theorem payloadLength_eq (f : Frame) :
    payloadLength f = if carriesPayload (opcOf f) then (operandA f).toNat else 0 :=
  if_congr (by simp [Opc.rbPushbulk, Opc.enqRx, Opc.enqTx]) rfl rfl

/-- An OPC that announces a payload names `A` (R92). -/
theorem namesA_of_carriesPayload {o : Byte} (h : carriesPayload o) : namesA o := by
  have : [0x03#8, 0x20#8, 0x22#8] ⊆
      [0x00#8, 0x01#8, 0x03#8, 0x04#8, 0x09#8, 0x0A#8, 0x13#8, 0x15#8, 0x20#8, 0x21#8, 0x22#8, 0x30#8] := by decide
  exact this h

section Decoded

variable {f : Frame} {bytes : List Byte} {i : Instr}

/-- The frame and its payload are those of an instruction, with the announced length (R90 to R92). -/
structure FrameOf (i : Instr) (f : Frame) (bytes : List Byte) : Prop where
  reserved : rsvOf f = 0x00#8
  fields : FieldsOf i (opcOf f) (selOf f) (tagOf f) (operandA f) (operandB f) bytes
  length : bytes.length = payloadLength f

/-- What the decoder can answer: one case for each way in which a frame is refused, in the order of the tests, and one for
an instruction. -/
inductive Decoded (f : Frame) (bytes : List Byte) : Except DecodeError Instr → Prop
  | reservedField (set : rsvOf f ≠ 0x00#8) : Decoded f bytes (.error .reservedField)
  | unknownOpcode (unnamed : ¬ isOpcode (opcOf f)) : Decoded f bytes (.error .unknownOpcode)
  | badSelector (bad : badSelector (opcOf f) (selOf f)) : Decoded f bytes (.error .badSelector)
  | unknownKind (reserved : rsvOf f = 0x00#8) (unnamed : namesNoKind (opcOf f) (selOf f)) :
      Decoded f bytes (.error .unknownKind)
  | payloadLength (reserved : rsvOf f = 0x00#8) (named : namesOperation (opcOf f) (selOf f))
      (length : bytes.length ≠ payloadLength f) : Decoded f bytes (.error .payloadLength)
  | instr (i : Instr) (frame : FrameOf i f bytes) : Decoded f bytes (.ok i)

theorem FieldsOf.namesOperation {o l : Byte} {tag : Tag} {a b : Word} (h : FieldsOf i o l tag a b bytes) :
    namesOperation o l := by
  have named := instr_namesOperation i
  rwa [h.opc, h.sel] at named

theorem decode_decoded (f : Frame) (bytes : List Byte) : Decoded f bytes (decode f bytes) := by
  unfold decode
  split
  · next set => exact .reservedField set
  · next hr =>
    have reserved := not_not.mp hr
    have reading := decodeFields_reading (opcOf f) (selOf f) (tagOf f) (operandA f) (operandB f) bytes
    split
    · next e he =>
      rw [he] at reading
      cases reading with
      | unknownOpcode unnamed => exact .unknownOpcode unnamed
      | badSelector bad => exact .badSelector bad
      | unknownKind unnamed => exact .unknownKind reserved unnamed
    · next i hi =>
      rw [hi] at reading
      cases reading with
      | instr _ fields =>
        split
        · next length => exact .instr i ⟨reserved, fields, length⟩
        · next length => exact .payloadLength reserved fields.namesOperation length

/-- A frame decodes to an instruction exactly when it and its payload are those of the instruction. -/
theorem decode_eq_ok_iff : decode f bytes = .ok i ↔ FrameOf i f bytes := by
  constructor
  · intro h
    have decoded := decode_decoded f bytes
    rw [h] at decoded
    cases decoded with
    | instr _ frame => exact frame
  · rintro ⟨reserved, fields, length⟩
    rw [decode, if_neg (not_not.mpr reserved), fields.decodeFields]
    exact if_pos length

theorem FrameOf.payload_eq (h : FrameOf i f bytes) : i.payload = bytes := by
  by_cases carries : carriesPayload (opcOf f)
  · exact h.fields.payload carries
  · have empty := h.length
    rw [payloadLength_eq, if_neg carries] at empty
    rw [List.length_eq_zero_iff.mp empty]
    exact instr_payload_eq_nil (h.fields.opc ▸ carries)

theorem FrameOf.wellFormed (h : FrameOf i f bytes) : i.wellFormed := by
  rw [instr_wellFormed_iff, h.payload_eq, payloadFits, h.length, payloadLength_eq]
  split <;> omega

theorem FrameOf.operandA_eq (h : FrameOf i f bytes) (named : namesA (opcOf f)) : operandA f = i.a := by
  by_cases carries : carriesPayload (opcOf f)
  · rw [instr_a_eq_length (h.fields.opc ▸ carries), h.payload_eq, h.length, payloadLength_eq, if_pos carries,
      BitVec.ofNat_toNat, BitVec.setWidth_eq]
  · exact (h.fields.operandA named carries).symm

/-- A frame that agrees in the fields that the operation names is a frame of the same instruction. -/
theorem FrameOf.congr {g : Frame} (h : FrameOf i f bytes) (opc : opcOf g = opcOf f) (sel : selOf g = selOf f)
    (tag : tagOf g = tagOf f) (rsv : rsvOf g = rsvOf f) (a : namesA (opcOf f) → operandA g = operandA f)
    (b : namesB (opcOf f) → operandB g = operandB f) : FrameOf i g bytes where
  reserved := rsv.trans h.reserved
  fields := by
    rw [opc, sel, tag]
    exact { h.fields with
      operandA := fun named plain => (h.fields.operandA named plain).trans (a named).symm
      operandB := fun named => (h.fields.operandB named).trans (b named).symm }
  length := by
    have same : carriesPayload (opcOf f) → operandA g = operandA f := fun carries => a (namesA_of_carriesPayload carries)
    rw [h.length, payloadLength_eq, payloadLength_eq, opc]
    split
    · next carries => rw [same carries]
    · rfl

theorem encode_frameOf (h : i.wellFormed) : FrameOf i (encode i).frame (encode i).payload := by
  obtain ⟨opc, sel, tag, rsv, a, b⟩ := encode_fields i
  refine ⟨rsv, ?_, ?_⟩
  · rw [opc, sel, tag, a, b]
    exact ⟨rfl, rfl, rfl, fun _ _ => rfl, fun _ => rfl, fun _ => rfl⟩
  · rw [payloadLength_eq, opc, a]
    split
    · next carries =>
      rw [instr_a_eq_length carries, BitVec.toNat_ofNat, Nat.mod_eq_of_lt (instr_wellFormed_iff.mp h)]
      rfl
    · next plain => exact congrArg List.length (instr_payload_eq_nil plain)

end Decoded

/-! ### The statements about decoding -/

/-- Settles O1: the encoding of an instruction is a frame of it. -/
theorem decodeInvertsEncode : Obligations.DecodeInvertsEncode := fun _ h => decode_eq_ok_iff.mpr (encode_frameOf h)

/-- Settles O2: an accepted frame is a frame of the instruction, and so is every other that agrees with it in the fields that
the operation names. -/
theorem frameFieldsBecomeOperands : Obligations.FrameFieldsBecomeOperands := by
  intro f bytes i h
  have frame := decode_eq_ok_iff.mp h
  refine ⟨⟨frame.fields.opc.symm, frame.fields.sel.symm, frame.fields.tag.symm, frame.reserved, frame.payload_eq,
    frame.wellFormed, frame.operandA_eq, fun named => (frame.fields.operandB named).symm⟩, ?_⟩
  exact fun g opc sel tag rsv a b => decode_eq_ok_iff.mpr (frame.congr opc sel tag rsv a b)

/-- A frame that names an operation is not malformed. -/
theorem not_malformed_of_names {f : Frame} (reserved : rsvOf f = 0x00#8)
    (named : isOpcode (opcOf f) ∧ ¬ badSelector (opcOf f) (selOf f)) : ¬ malformed f := by
  rw [malformed_iff]
  rintro (unnamed | set | bad)
  · exact unnamed named.1
  · exact set reserved
  · exact named.2 bad

/-- Settles O3: the reasons of the decoder exclude each other, so that each holds exactly when the decoder answers by it. -/
theorem decoderRefusesExactly : Obligations.DecoderRefusesExactly := by
  intro f bytes
  rw [← payloadLength_eq]
  have decoded := decode_decoded f bytes
  generalize decode f bytes = r at decoded ⊢
  cases decoded with
  | reservedField set =>
    have bad : malformed f := .inr (.inl set)
    simp [bad]
  | unknownOpcode unnamed =>
    have bad : malformed f := .inl unnamed
    simp [bad]
  | badSelector undefined =>
    have bad : malformed f := .inr (.inr undefined)
    simp [bad]
  | unknownKind reserved unnamed =>
    have good := not_malformed_of_names reserved (event_defines_selector _ unnamed.1)
    simp [good, unnamed]
  | payloadLength reserved named length =>
    have good := not_malformed_of_names reserved ⟨named.1, named.2.1⟩
    simp [good, named.2.2, length]
  | instr i frame =>
    have named := frame.fields.namesOperation
    have good := not_malformed_of_names frame.reserved ⟨named.1, named.2.1⟩
    simp [good, named.2.2, frame.length]

/-! ### Frames that name nothing (R98, R212, R252) -/

/-- A port that is free carries out its first command. -/
theorem acceptStep_first {s : State} {p : Port} {c : Command} {rest : List Command} (first : s.pend p = c :: rest)
    (idle : s.xfer p = .idle) : acceptStep p s = runCommand c (s.taking p rest) := by
  rw [acceptStep, first]
  exact if_pos idle

/-- A frame refused for anything but its payload is answered BadArgument. -/
theorem runCommand_refused {c : Command} {e : DecodeError} (s : State) (refused : decode c.frame c.payload = .error e)
    (he : e ≠ .payloadLength) : runCommand c s = .next (s.raise .badArgument (opcOf c.frame) (tagOf c.frame)) := by
  rw [runCommand, refused]
  cases e with
  | payloadLength => exact absurd rfl he
  | _ => rfl

/-- Settles O4: by the decoder's reasons (O3), and EXEC and REQ define every bit of SEL. -/
theorem framesThatNameNothingAreAnswered : Obligations.FramesThatNameNothingAreAnswered := by
  refine ⟨fun s p c rest first idle bad => ?_, fun f event reserved => ?_,
    fun s p rest o l tag a b bytes first idle event unnamed => ?_⟩
  · have answer {e : DecodeError} (he : e ≠ .payloadLength) (refused : decode c.frame c.payload = .error e) :=
      (acceptStep_first first idle).trans (runCommand_refused (s.taking p rest) refused he)
    obtain refused | refused | refused := (decoderRefusesExactly c.frame c.payload).1.mp bad
    · exact answer (by decide) refused
    · exact answer (by decide) refused
    · exact answer (by decide) refused
  · exact not_malformed_of_names reserved (event_defines_selector _ event)
  · have refused : decode (mkFrame o l tag a b) bytes = .error .unknownKind := by
      refine (decoderRefusesExactly _ _).2.1.mp ?_
      rw [opcOf_mkFrame, selOf_mkFrame]
      have defined := event_defines_selector l event
      exact ⟨not_malformed_of_names (rsvOf_mkFrame o l tag a b) (by simpa using defined), event, unnamed⟩
    have answer := runCommand_refused (c := ⟨mkFrame o l tag a b, bytes⟩) (s.taking p rest) refused (by decide)
    rw [opcOf_mkFrame, tagOf_mkFrame] at answer
    exact (acceptStep_first first idle).trans answer

/-! ### The frames the engine sends (R93, R95, R280) -/

/-- `WRAPPED` and the seven zeros above it (R93). -/
theorem Response.flags_fields (r : Response) : r.flags.getLsbD 0 = r.wrapped ∧ r.flags.extractLsb' 1 7 = 0#7 := by
  unfold Response.flags
  cases r.wrapped <;> decide

/-- Each field of a response is one part of the frame, or lies in its flags. -/
theorem Response.frame_fields (r : Response) :
    r.frame.extractLsb' 0 8 = r.status.code ∧ r.frame.extractLsb' 8 8 = r.opc ∧ r.frame.extractLsb' 16 8 = r.tag ∧
    r.frame.getLsbD 24 = r.flags.getLsbD 0 ∧ r.frame.extractLsb' 25 7 = r.flags.extractLsb' 1 7 ∧
    r.frame.extractLsb' 32 32 = r.d0 ∧ r.frame.extractLsb' 64 32 = r.d1 := by
  simp (disch := omega) only [Response.frame, BitVec.extractLsb'_append_eq_of_le,
    BitVec.extractLsb'_append_eq_of_add_le, BitVec.extractLsb'_eq_self, BitVec.getLsbD_append, Nat.reduceSub,
    Nat.reduceLT, if_true, if_false, and_self]

theorem stateChangedFrame_fields (v : Word) :
    (stateChangedFrame v).extractLsb' 0 8 = 0x01#8 ∧ (stateChangedFrame v).extractLsb' 8 24 = 0#24 ∧
    (stateChangedFrame v).extractLsb' 32 32 = v := by
  simp (disch := omega) only [stateChangedFrame, BitVec.extractLsb'_append_eq_of_le,
    BitVec.extractLsb'_append_eq_of_add_le, BitVec.extractLsb'_eq_self, Nat.reduceSub, and_self]

/-- The bytes of a word made of four. -/
theorem bytes_of_word (b3 b2 b1 b0 : Byte) :
    (b3 ++ b2 ++ b1 ++ b0 : Word).extractLsb' 0 8 = b0 ∧ (b3 ++ b2 ++ b1 ++ b0 : Word).extractLsb' 8 8 = b1 ∧
    (b3 ++ b2 ++ b1 ++ b0 : Word).extractLsb' 16 8 = b2 ∧ (b3 ++ b2 ++ b1 ++ b0 : Word).extractLsb' 24 8 = b3 := by
  simp (disch := omega) only [BitVec.extractLsb'_append_eq_of_le, BitVec.extractLsb'_append_eq_of_add_le,
    BitVec.extractLsb'_eq_self, Nat.reduceSub, and_self]

theorem Snapshot.frame_words (c : Snapshot) :
    c.frame.extractLsb' 0 32 = c.w0 ∧ c.frame.extractLsb' 32 32 = c.w1 ∧ c.frame.extractLsb' 64 32 = c.w2 ∧
    c.frame.extractLsb' 96 32 = c.w3 ∧ c.frame.extractLsb' 128 32 = c.w4 := by
  simp (disch := omega) only [Snapshot.frame, BitVec.extractLsb'_append_eq_of_le,
    BitVec.extractLsb'_append_eq_of_add_le, BitVec.extractLsb'_eq_self, Nat.reduceSub, and_self]

/-- Settles O5: every field is one of the parts that its frame is put together from. -/
theorem outputFrameLayouts : Obligations.OutputFrameLayouts := by
  refine ⟨fun r => ?_, by decide, stateChangedFrame_fields, fun k => ?_⟩
  · obtain ⟨wrapped, zeros⟩ := r.flags_fields
    obtain ⟨status, opc, tag, bit24, above, d0, d1⟩ := r.frame_fields
    exact ⟨status, opc, tag, bit24.trans wrapped, above.trans zeros, d0, d1⟩
  · exact ⟨bytes_of_word _ _ _ _, bytes_of_word _ _ _ _, rfl, rfl, bytes_of_word _ _ _ _, k.snapshot.frame_words⟩

end Sys2Proof.Machine
end

section
/-! PROOFS. How a command ends: with its answer, last on the port that issued it, or with a wait parked in the slot of its
TAG, or with a transfer loaded (30_encoding.md R93; 20_memory.md R67; 41_linestate.md R152, R163). -/

namespace Sys2Proof.Machine

/-! ### What is sent before the answer -/

/-- Besides its own answer a command sends on its port only answers to parked waits that it ends (R168, R170). -/
structure State.Completes (s u : State) : Prop where
  issuer : u.issuer = s.issuer
  sent : ∃ others, u.out s.issuer = s.out s.issuer ++ others ∧
    ∀ q ∈ others, q.status = .offline ∨ q.status = .cancelled

theorem State.Completes.quiet {s u : State} (issuer : u.issuer = s.issuer) (outH : u.outH = s.outH)
    (outW : u.outW = s.outW) : s.Completes u where
  issuer := issuer
  sent := by
    have same : u.out s.issuer = s.out s.issuer := by
      cases s.issuer
      · exact outH
      · exact outW
    exact ⟨[], by rw [same, List.append_nil], by simp⟩

theorem State.Completes.trans {s u v : State} (h : s.Completes u) (h' : u.Completes v) : s.Completes v where
  issuer := h'.issuer.trans h.issuer
  sent := by
    obtain ⟨first, hfirst, ended⟩ := h.sent
    obtain ⟨second, hsecond, ended'⟩ := h'.sent
    rw [h.issuer] at hsecond
    refine ⟨first ++ second, by rw [hsecond, hfirst, List.append_assoc], fun q hq => ?_⟩
    rcases List.mem_append.mp hq with hq | hq
    · exact ended q hq
    · exact ended' q hq

theorem State.complete_completes (s : State) (w : Nat) (x : Wait) {k : Status} (d0 : Word)
    (hk : k = .offline ∨ k = .cancelled) : s.Completes (s.complete w x k d0) where
  issuer := State.complete_issuer s w x k d0
  sent := by
    have same : (s.setSlot w none).out s.issuer = s.out s.issuer := by cases s.issuer <;> rfl
    unfold State.complete
    by_cases own : s.issuer = x.port
    · rw [own] at same ⊢
      refine ⟨_, by rw [State.send_out_self, same], fun q hq => ?_⟩
      rw [List.mem_singleton.mp hq]
      exact hk
    · exact ⟨[], by rw [State.send_out_ne _ _ _ _ own, same, List.append_nil], by simp⟩

theorem State.completeOffline_completes (xs : List (Option Wait)) (s : State) (w : Nat) :
    s.Completes (s.completeOffline w xs) := by
  induction xs generalizing s w with
  | nil => exact .quiet rfl rfl rfl
  | cons o xs ih =>
    cases o with
    | none => exact ih s (w + 1)
    | some x => exact (s.complete_completes w x 0#32 (.inl rfl)).trans (ih _ (w + 1))

theorem State.terminated_completes (s : State) : s.Completes s.terminated := by
  have flagged : s.Completes { s with terminating := true } := .quiet rfl rfl rfl
  have ended := State.completeOffline_completes s.slots { s with terminating := true } 0
  have unwatched (u : State) : u.Completes { u with watchMask := 0#32 } := .quiet rfl rfl rfl
  exact (flagged.trans ended).trans (unwatched _)

/-! ### The pieces of a step that send no response -/

theorem State.Completes.refl (s : State) : s.Completes s := .quiet rfl rfl rfl

theorem State.setRb_completes (s : State) (d : Dir) (b : RingBuffer) : s.Completes (s.setRb d b) := by
  cases d <;> exact .quiet rfl rfl rfl

theorem State.changeState_completes (s : State) (n m : Word) : s.Completes (s.changeState n m) :=
  .quiet (s.changeState_issuer n m) (s.changeState_outH n m) (s.changeState_outW n m)

theorem State.acquisition_completes (s : State) : s.Completes s.acquisition := by
  have rebuilt : s.Completes s.rebuild := .quiet rfl rfl rfl
  exact rebuilt.trans (s.rebuild.changeState_completes _ _)

/-! ### The three endings -/

/-- How carrying out instruction `i` ends. -/
inductive Ending (i : Instr) (s : State) : State → Prop
  | answered (u : State) (r : Response) (before : s.Completes u) (opc : r.opc = i.opc) (tag : r.tag = i.tag) :
      Ending i s (u.respond r)
  | parked (x : Wait) (slot : s.canPark i.tag) (opc : x.kind.opc = i.opc) (port : x.port = s.issuer)
      (sleeps : x.awake = false) : Ending i s (s.park i.tag x)
  | loaded (job : XferJob) (opc : job.op.opc = i.opc) (tag : job.tag = i.tag) :
      Ending i s (s.setXfer s.issuer (.copy job))

variable {i : Instr} {s t : State}

theorem Ending.of_answer {u : State} {r : Response}
    (h : (.next (u.respond r) : Host.Outcome State Fault Refusal) = .next t) (before : s.Completes u) (opc : r.opc = i.opc) (tag : r.tag = i.tag) : Ending i s t := by
  cases h
  exact .answered u r before opc tag

/-- An answer, often an error, with nothing else done. -/
theorem Ending.of_respond {r : Response} (h : (.next (s.respond r) : Host.Outcome State Fault Refusal) = .next t)
    (opc : r.opc = i.opc) (tag : r.tag = i.tag) : Ending i s t := .of_answer h (.refl s) opc tag

/-! ### The ring-buffer operations -/

theorem runRbInit_ending {d : Dir} {tag : Tag} {a : Word} (h : runRbInit d tag a s = .next t) :
    Ending (.rbInit d tag a) s t := by
  unfold runRbInit at h
  split at h
  · exact .of_respond h rfl rfl
  · exact .of_answer h (s.setRb_completes _ _) rfl rfl

theorem runRbPush_ending {d : Dir} {tag : Tag} {a : Word} (h : runRbPush d tag a s = .next t) :
    Ending (.rbPush d tag a) s t := by
  unfold runRbPush at h
  split at h
  · exact .of_respond h rfl rfl
  · split at h
    · exact .of_respond h rfl rfl
    · split at h
      · exact .of_answer h (s.setRb_completes _ _) rfl rfl
      · cases h

theorem runRbPop_ending {d : Dir} {tag : Tag} (h : runRbPop d tag s = .next t) : Ending (.rbPop d tag) s t := by
  unfold runRbPop at h
  split at h
  · exact .of_respond h rfl rfl
  · split at h
    · exact .of_answer h (s.setRb_completes _ _) rfl rfl
    · cases h

theorem runRbPushbulk_ending {d : Dir} {tag : Tag} {bytes : List Byte} (h : runRbPushbulk d tag bytes s = .next t) :
    Ending (.rbPushbulk d tag bytes) s t := by
  unfold runRbPushbulk at h
  split at h
  · exact .of_answer h (s.setRb_completes _ _) rfl rfl
  · cases h

theorem runRbPopbulk_ending {d : Dir} {tag : Tag} {a : Word} (h : runRbPopbulk d tag a s = .next t) :
    Ending (.rbPopbulk d tag a) s t := by
  unfold runRbPopbulk at h
  split at h
  · exact .of_answer h (s.setRb_completes _ _) rfl rfl
  · cases h

theorem runRbBegindr_ending {d : Dir} {tag : Tag} {a : Word} (h : runRbBegindr d tag a s = .next t) :
    Ending (.rbBegindr d tag a) s t := by
  unfold runRbBegindr at h
  split at h
  · exact .of_answer h (s.setRb_completes _ _) rfl rfl
  · cases h

theorem runRbEnddr_ending {d : Dir} {tag : Tag} {a : Word} (h : runRbEnddr d tag a s = .next t) :
    Ending (.rbEnddr d tag a) s t := by
  unfold runRbEnddr at h
  split at h
  · exact .of_respond h rfl rfl
  · exact .of_answer h (s.setRb_completes _ _) rfl rfl

/-! ### The line-state operations -/

theorem runAcquire_ending {blocking : Bool} {tag : Tag} (h : runAcquire blocking tag s = .next t) :
    Ending (.acquire blocking tag) s t := by
  unfold runAcquire at h
  split at h
  · exact .of_respond h rfl rfl
  · split at h
    · exact .of_answer h s.acquisition_completes rfl rfl
    · split at h
      · exact .of_respond h rfl rfl
      · split at h
        · exact .of_respond h rfl rfl
        · next slot =>
          cases h
          exact .parked _ (not_not.mp slot) rfl rfl rfl

theorem runRelease_ending {tag : Tag} (h : runRelease tag s = .next t) : Ending (.release tag) s t := by
  unfold runRelease at h
  split at h
  · exact .of_respond h rfl rfl
  · split at h
    · exact .of_respond h rfl rfl
    · exact .of_answer h (s.changeState_completes _ _) rfl rfl

theorem runSetstate_ending {tag : Tag} {a b : Word} (h : runSetstate tag a b s = .next t) :
    Ending (.setstate tag a b) s t := by
  unfold runSetstate at h
  split at h
  · exact .of_respond h rfl rfl
  · split at h
    · exact .of_respond h rfl rfl
    · exact .of_answer h (s.changeState_completes _ _) rfl rfl

theorem runWatchstate_ending {tag : Tag} {a b : Word} (h : runWatchstate tag a b s = .next t) :
    Ending (.watchstate tag a b) s t := by
  unfold runWatchstate at h
  split at h
  · exact .of_respond h rfl rfl
  · split at h
    · exact .of_respond h rfl rfl
    · split at h
      · exact .of_respond h rfl rfl
      · exact .of_respond h rfl rfl
      · split at h
        · exact .of_respond h rfl rfl
        · next slot =>
          cases h
          exact .parked _ (not_not.mp slot) rfl rfl rfl

theorem runCancelwait_ending {tag : Tag} (h : runCancelwait tag s = .next t) : Ending (.cancelwait tag) s t := by
  unfold runCancelwait at h
  split at h
  · exact .of_respond h rfl rfl
  · split at h
    · exact .of_respond h rfl rfl
    · next x _ =>
      cases h
      have ended := s.complete_completes tag.toNat x 0#32 (.inr rfl)
      exact .answered _ _ (ended.trans (.quiet rfl rfl rfl)) rfl rfl

theorem runDeqRx_ending {tag : Tag} {a b : Word} (h : runDeqRx tag a b s = .next t) : Ending (.deqRx tag a b) s t := by
  unfold runDeqRx at h
  split at h
  · exact .of_respond h rfl rfl
  · split at h
    · exact .of_respond h rfl rfl
    · cases h
      exact .loaded _ rfl rfl

/-! ### Every instruction -/

theorem exec_event_ending (op : i.opc = Opc.exec) (h : exec i s = .next t) : Ending i s t := by
  obtain ⟨v, _, k, n, m, applied, -⟩ := exec_event s op
  rw [applied, State.configEvent] at h
  split at h
  · exact .of_respond h op.symm rfl
  · split at h
    · exact .of_respond h op.symm rfl
    · have applied : s.Completes (s.setBank k) := .quiet rfl rfl rfl
      have changed := applied.trans ((s.setBank k).changeState_completes n m)
      exact .of_answer h (changed.trans (.quiet rfl rfl rfl)) op.symm rfl

/-- How a command ends, whatever it is. -/
theorem exec_ending (h : exec i s = .next t) : Ending i s t := by
  by_cases op : i.opc = Opc.exec
  · exact exec_event_ending op h
  cases i with
  | rbInit => exact runRbInit_ending h
  | rbPush => exact runRbPush_ending h
  | rbPop => exact runRbPop_ending h
  | rbPushbulk => exact runRbPushbulk_ending h
  | rbPopbulk => exact runRbPopbulk_ending h
  | rbBegindr => exact runRbBegindr_ending h
  | rbEnddr => exact runRbEnddr_ending h
  | acquire => exact runAcquire_ending h
  | release => exact runRelease_ending h
  | setstate => exact runSetstate_ending h
  | watchstate => exact runWatchstate_ending h
  | cancelwait => exact runCancelwait_ending h
  | deqRx => exact runDeqRx_ending h
  | terminate tag =>
    cases h
    exact .answered s.terminated _ s.terminated_completes rfl rfl
  | enqRx =>
    cases h
    exact .loaded _ rfl rfl
  | rbClose => exact .of_answer h (s.setRb_completes _ _) rfl rfl
  | lreset =>
    have cleared : s.Completes { s with rx := s.rx.clear, tx := s.tx.clear } := .quiet rfl rfl rfl
    exact .of_answer h (cleared.trans (State.changeState_completes _ _ _)) rfl rfl
  | getstate => exact .of_answer h (s.changeState_completes _ _) rfl rfl
  | snapshot => exact .of_answer h (.quiet rfl rfl rfl) rfl rfl
  | rbFree | rbUsed | rbCap | rbStatus | enqTx
  | reqEvActive | reqEvDataRate | reqEvDataSize | reqEvStopBits | reqEvTxParity | reqEvRxParity | reqEvXonByte
  | reqEvXoffByte | reqEvSpecialByte | reqEvValidDataByte | reqEvMinLatency | reqEvDataLatency | reqEvCharLatency
  | reqEvFlowControl | reqEvLineBreak | reqEvRxqSize | reqEvTxqSize | reqEvRxqHighWater | reqEvRxqLowWater
  | reqEvTxqHighWater | reqEvTxqLowWater => exact .of_respond h rfl rfl
  | _ => exact absurd rfl op

theorem State.park_slot_self {tag : Tag} (x : Wait) (h : tag.toNat < s.slots.length) :
    (s.park tag x).slot tag.toNat = some x := by
  rw [State.slot, State.park_slots, List.getElem?_set_self h]
  rfl

/-- Settles O48: each of the three endings of a command is one of the three outcomes. -/
theorem everyCommandIsAnsweredOrWaits : Obligations.EveryCommandIsAnsweredOrWaits := by
  intro i s t slots h
  cases exec_ending h with
  | answered u r before opc tag =>
    obtain ⟨others, sent, ended⟩ := before.sent
    refine ⟨(State.respond_issuer u r).trans before.issuer, .inl ⟨others, r, ?_, opc, tag, ended⟩⟩
    rw [← before.issuer, State.respond_out_self, before.issuer, sent]
  | parked x slot opc port sleeps =>
    have exists_slot : i.tag.toNat < s.slots.length := slots ▸ slot.1
    exact ⟨rfl, .inr (.inl ⟨rfl, rfl, slot.2, x, State.park_slot_self x exists_slot, opc, port, sleeps⟩)⟩
  | loaded job opc tag =>
    exact ⟨State.setXfer_issuer s _ _, .inr (.inr ⟨State.setXfer_outH s _ _, State.setXfer_outW s _ _, job,
      State.setXfer_xfer_self s _ _, tag, opc⟩)⟩

end Sys2Proof.Machine
end

section
/-! PROOFS. The rules of the ring-buffer operations (40_ringbuffer.md R121 to R132): one equation for each way in which an
operation ends, in every state, and from them what each does to a buffer that meets its invariants. -/

namespace Sys2Proof.Machine

/-! ### Frames of the ring-buffer operations (R90 to R92) -/

/-- A frame of a row whose selector is a direction, with a payload of the announced length, names the row's operation. -/
theorem decode_ringRow {o : Byte} {tag : Tag} {a b : Word} {bytes : List Byte} {op : Dir → Instr}
    (row : ∀ l, decodeFields o l tag a b bytes = decodeRing l op) (d : Dir)
    (length : bytes.length = if o = 0x03#8 ∨ o = 0x20#8 ∨ o = 0x22#8 then a.toNat else 0) :
    decode (mkFrame o (selOfDir d) tag a b) bytes = .ok (op d) := by
  rw [decode_mkFrame, row, decodeRing, dirOfSel_selOfDir]
  exact if_pos length

/-- The same for an operation that carries no payload. -/
theorem decode_plainRingRow {o : Byte} {tag : Tag} {a b : Word} {op : Dir → Instr}
    (row : ∀ l, decodeFields o l tag a b [] = decodeRing l op) (d : Dir)
    (plain : ¬ (o = 0x03#8 ∨ o = 0x20#8 ∨ o = 0x22#8)) : decode (mkFrame o (selOfDir d) tag a b) [] = .ok (op d) :=
  decode_ringRow row d (if_neg plain).symm

/-! ### How each operation ends -/

section Endings

variable {d : Dir} {tag : Tag} {a : Word} {s : State} {c : RingBuffer}

theorem exec_rbInit_refused (bad : a = 0#32 ∨ s.depth d < a.toNat) :
    exec (.rbInit d tag a) s = .next (s.respond { status := .badArgument, opc := Opc.rbInit, tag := tag }) :=
  if_pos bad

theorem exec_rbInit_opened (legal : ¬ (a = 0#32 ∨ s.depth d < a.toNat)) :
    exec (.rbInit d tag a) s =
      .next ((s.setRb d ((s.rb d).openAt a.toNat)).respond { opc := Opc.rbInit, tag := tag, d0 := a }) :=
  if_neg legal

theorem exec_rbPush_refused (wide : ¬ isByte a) :
    exec (.rbPush d tag a) s = .next (s.respond { status := .badArgument, opc := Opc.rbPush, tag := tag }) :=
  if_pos wide

theorem exec_rbPush_full (byte : isByte a) (full : (s.rb d).inQueue = (s.rb d).size) :
    exec (.rbPush d tag a) s = .next (s.respond { status := .queueFull, opc := Opc.rbPush, tag := tag }) :=
  (if_neg (not_not.mpr byte)).trans (if_pos full)

theorem exec_rbPush_pushed (byte : isByte a) (room : (s.rb d).inQueue ≠ (s.rb d).size)
    (pushed : (s.rb d).push (byteOf a) = some c) :
    exec (.rbPush d tag a) s = .next ((s.setRb d c).respond { opc := Opc.rbPush, tag := tag }) := by
  rw [exec, runRbPush, if_neg (not_not.mpr byte), if_neg room, pushed]

theorem exec_rbPop_empty (empty : (s.rb d).inQueue = 0) :
    exec (.rbPop d tag) s = .next (s.respond { status := .queueEmpty, opc := Opc.rbPop, tag := tag }) :=
  if_pos empty

theorem exec_rbPop_popped {x : Byte} (filled : (s.rb d).inQueue ≠ 0) (popped : (s.rb d).pop = some (x, c)) :
    exec (.rbPop d tag) s =
      .next ((s.setRb d c).respond { opc := Opc.rbPop, tag := tag, d0 := wordOfByte x }) := by
  rw [exec, runRbPop, if_neg filled, popped]

theorem exec_rbPushbulk {bytes : List Byte} {n : Nat} (pushed : (s.rb d).pushBulk bytes = some (n, c)) :
    exec (.rbPushbulk d tag bytes) s =
      .next ((s.setRb d c).respond { opc := Opc.rbPushbulk, tag := tag, d0 := wordOfNat n }) := by
  rw [exec, runRbPushbulk, pushed]

theorem exec_rbPopbulk {out : List Byte} (popped : (s.rb d).popBulk a.toNat = some (out, c)) :
    exec (.rbPopbulk d tag a) s = .next ((s.setRb d c).respond
      { opc := Opc.rbPopbulk, tag := tag, d0 := wordOfNat out.length, bytes := out }) := by
  rw [exec, runRbPopbulk, popped]

theorem exec_rbBegindr {bytes : List Byte} (exposed : (s.rb d).expose a.toNat = some (bytes, c)) :
    exec (.rbBegindr d tag a) s = .next ((s.setRb d c).respond
      { opc := Opc.rbBegindr, tag := tag, wrapped := (s.rb d).windowWrapped a.toNat,
        d0 := wordOfNat (s.rb d).lastChar, d1 := wordOfNat ((s.rb d).windowLength a.toNat), bytes := bytes }) := by
  rw [exec, runRbBegindr, exposed]

theorem exec_rbEnddr_refused (beyond : (s.rb d).exposed < a.toNat) :
    exec (.rbEnddr d tag a) s = .next (s.respond { status := .badArgument, opc := Opc.rbEnddr, tag := tag }) :=
  if_pos beyond

theorem exec_rbEnddr_consumed (within : a.toNat ≤ (s.rb d).exposed) :
    exec (.rbEnddr d tag a) s =
      .next ((s.setRb d ((s.rb d).consume a.toNat)).respond { opc := Opc.rbEnddr, tag := tag, d0 := a }) :=
  if_neg (Nat.not_lt.mpr within)

end Endings

/-! ### Buffered bytes and registers under the invariants (R25, R27) -/

section Invariants

variable {depth : Nat} {b : RingBuffer}

/-- A buffer that is not open is closed. -/
theorem RingBuffer.ok.closed (h : b.ok depth) (invalid : b.valid = false) : b.closedOk :=
  h.resolve_left fun opened => Bool.noConfusion (opened.1.symm.trans invalid)

theorem RingBuffer.ok.inQueue_le (h : b.ok depth) : b.inQueue ≤ b.size := by
  rcases h with ⟨-, -, hq, -⟩ | ⟨-, hs, -, -, hq, -⟩ <;> omega

theorem RingBuffer.ok.size_le (h : b.ok depth) : b.size ≤ depth := by
  rcases h with ⟨-, ⟨-, hs⟩, -⟩ | ⟨-, hs, -⟩ <;> omega

/-- The exposure lies within the buffered bytes and within the storage ahead of the read cursor. -/
theorem RingBuffer.ok.exposed_le (h : b.ok depth) : b.exposed ≤ b.inQueue ∧ b.lastChar + b.exposed ≤ b.size := by
  rcases h with ⟨-, -, -, -, -, he⟩ | ⟨-, hs, hl, -, hq, he⟩ <;> omega

/-- A direct-read window lies there too (R130). -/
theorem RingBuffer.ok.windowLength_le (h : b.ok depth) (n : Nat) :
    b.windowLength n ≤ b.inQueue ∧ b.lastChar + b.windowLength n ≤ b.size :=
  (RingBuffer.expose_spec h n).2.exposed_le

/-- The write cursor stands where the buffered bytes end. -/
theorem RingBuffer.ok.nextChar_eq (h : b.ok depth) : b.nextChar = (b.lastChar + b.inQueue) % b.size := by
  rcases h with ⟨-, -, -, -, hn, -⟩ | ⟨-, hs, hl, hn, hq, -⟩
  · exact hn
  · rw [hs, hl, hn, hq]

theorem RingBuffer.contents_take (b : RingBuffer) (n : Nat) :
    b.contents.take n = (List.range (min n b.inQueue)).map fun k => b.mem.read ((b.lastChar + k) % b.size) := by
  rw [RingBuffer.contents, ← List.map_take, List.take_range]

/-- The oldest bytes, as far as they lie ahead of the end of storage. -/
theorem RingBuffer.contents_take_run {n : Nat} (buffered : n ≤ b.inQueue) (ahead : b.lastChar + n ≤ b.size) :
    b.contents.take n = (List.range n).map fun k => b.mem.read (b.lastChar + k) := by
  rw [RingBuffer.contents_take, Nat.min_eq_left buffered]
  refine List.map_congr_left fun k hk => ?_
  rw [Nat.mod_eq_of_lt (by have := List.mem_range.mp hk; omega)]

/-- In a state with legal parameters the counts of a buffer fit a result word (R78). -/
theorem State.rb_size_lt {s : State} {d : Dir} (legal : s.params.legal) (hs : s.ringOk d) : (s.rb d).size < 2 ^ 31 := by
  have hle := hs.1.size_le
  obtain ⟨⟨-, hrx⟩, ⟨-, htx⟩, -⟩ := legal
  cases d
  · exact Nat.lt_of_le_of_lt (hle.trans hrx) (by decide)
  · exact Nat.lt_of_le_of_lt (hle.trans htx) (by decide)

theorem wordOfNat_toNat {n : Nat} (h : n < 2 ^ 31) : (wordOfNat n).toNat = n := by
  rw [wordOfNat, BitVec.toNat_ofNat, Nat.mod_eq_of_lt (by omega)]

/-- The bytes of a bulk push that fit stand in storage from the write cursor on (R124). -/
theorem RingBuffer.pushBulk_stored {c : RingBuffer} {bytes : List Byte} (h : b.ok depth)
    (frame : c = { b with mem := c.mem, nextChar := c.nextChar, inQueue := b.inQueue + min bytes.length b.free })
    (queued : c.contents = b.contents ++ bytes.take b.free) {k : Nat} (hk : k < min bytes.length b.free) :
    bytes[k]? = some (c.mem.read ((b.nextChar + k) % b.size)) := by
  have hsize : c.size = b.size := by rw [frame]
  have hlast : c.lastChar = b.lastChar := by rw [frame]
  have hcount : c.inQueue = b.inQueue + min bytes.length b.free := by rw [frame]
  calc bytes[k]?
      = c.contents[b.inQueue + k]? := by
        rw [queued, List.getElem?_append_right (by simp), RingBuffer.contents_length, Nat.add_sub_cancel_left,
          List.getElem?_take_of_lt (by omega)]
    _ = some (c.mem.read ((b.lastChar + (b.inQueue + k)) % b.size)) := by
        rw [RingBuffer.contents_getElem? c _ (by omega), hlast, hsize]
    _ = some (c.mem.read ((b.nextChar + k) % b.size)) := by
        rw [h.nextChar_eq, Nat.mod_add_mod, Nat.add_assoc]

end Invariants

/-! ### The statements about each operation -/

/-- Settles O10: the capacity is refused or the buffer opened. -/
theorem rbInitRule : Obligations.RbInitRule := fun d tag a _ _ =>
  ⟨decode_plainRingRow (op := (.rbInit · tag a)) (fun _ => rfl) d (by decide), exec_rbInit_refused, exec_rbInit_opened⟩

/-- Settles O11: the operand is refused, the buffer full, or the byte pushed. -/
theorem rbPushRule : Obligations.RbPushRule := by
  intro d tag a b s
  refine ⟨decode_plainRingRow (op := (.rbPush · tag a)) (fun _ => rfl) d (by decide),
    fun wide => exec_rbPush_refused (BitVec.not_le.mpr wide), exec_rbPush_full, fun byte room hs => ?_⟩
  obtain ⟨c, pushed, -, -, frame, -, stored⟩ := RingBuffer.push_spec hs.1 hs.2 room (byteOf a)
  refine ⟨c.mem, ?_, (stored _).trans (if_pos rfl), fun i hi => (stored i).trans (if_neg hi.symm)⟩
  rw [exec_rbPush_pushed byte room pushed, frame]
  rfl

/-- Settles O12: the buffer is empty or the oldest byte popped. -/
theorem rbPopRule : Obligations.RbPopRule := by
  intro d tag a b s
  refine ⟨decode_plainRingRow (op := (.rbPop · tag)) (fun _ => rfl) d (by decide), exec_rbPop_empty, fun filled hs => ?_⟩
  obtain ⟨x, c, popped, -, rfl, rfl, -⟩ := RingBuffer.pop_spec hs.1 filled
  exact exec_rbPop_popped filled popped

/-- Settles O13: the bytes that fit come last among the buffered ones, and no other index is written. -/
theorem rbPushbulkRule : Obligations.RbPushbulkRule := by
  intro d tag b bytes s
  refine ⟨fun fits => decode_ringRow (op := (.rbPushbulk · tag bytes)) (fun _ => rfl) d ?_, fun hs => ?_⟩
  · rw [if_pos (.inl rfl), BitVec.toNat_ofNat, Nat.mod_eq_of_lt fits]
  · obtain ⟨c, pushed, -, -, frame, queued, kept⟩ := RingBuffer.pushBulk_spec hs.1 hs.2 bytes
    refine ⟨c.mem, ?_, fun k => RingBuffer.pushBulk_stored hs.1 (by rw [frame]) queued, kept⟩
    rw [exec_rbPushbulk pushed, frame]
    rfl

/-- Settles O14: the bytes popped are the oldest of the buffered ones. -/
theorem rbPopbulkRule : Obligations.RbPopbulkRule := by
  intro d tag a b s
  refine ⟨decode_plainRingRow (op := (.rbPopbulk · tag a)) (fun _ => rfl) d (by decide), fun hs => ?_⟩
  obtain ⟨c, popped, -, rfl, -⟩ := RingBuffer.popBulk_spec hs.1 a.toNat
  rw [exec_rbPopbulk popped, List.length_take, RingBuffer.contents_length, RingBuffer.contents_take]
  rfl

/-- Settles O15: the queries answer from the registers, whose values fit a word. -/
theorem rbQueryRules : Obligations.RbQueryRules := by
  intro d tag a b s
  refine ⟨⟨decode_plainRingRow (op := (.rbFree · tag)) (fun _ => rfl) d (by decide), rfl⟩,
    ⟨decode_plainRingRow (op := (.rbUsed · tag)) (fun _ => rfl) d (by decide), rfl⟩,
    ⟨decode_plainRingRow (op := (.rbCap · tag)) (fun _ => rfl) d (by decide), rfl⟩,
    ⟨decode_plainRingRow (op := (.rbStatus · tag)) (fun _ => rfl) d (by decide), rfl⟩, fun legal hs => ?_⟩
  have hsize := State.rb_size_lt legal hs
  have hcount := hs.1.inQueue_le
  refine ⟨wordOfNat_toNat hsize, wordOfNat_toNat (by omega), ?_⟩
  have hfree : (BitVec.ofNat 32 ((s.rb d).size - (s.rb d).inQueue)).toNat = (s.rb d).size - (s.rb d).inQueue :=
    wordOfNat_toNat (by omega)
  omega

/-- Settles O16: the window is the oldest bytes, as many as lie ahead of the end of storage. -/
theorem rbBegindrRule : Obligations.RbBegindrRule := by
  rintro d tag a b s _ _ _ rfl rfl rfl
  refine ⟨decode_plainRingRow (op := (.rbBegindr · tag a)) (fun _ => rfl) d (by decide), fun hs => ?_⟩
  obtain ⟨buffered, ahead⟩ := hs.1.windowLength_le a.toNat
  rw [exec_rbBegindr (RingBuffer.expose_spec hs.1 a.toNat).1, RingBuffer.contents_take_run buffered ahead]
  rfl

/-- Settles O17: the size is refused, or the window consumed and the exposure ended. -/
theorem rbEnddrRule : Obligations.RbEnddrRule := by
  intro d tag a b s
  refine ⟨decode_plainRingRow (op := (.rbEnddr · tag a)) (fun _ => rfl) d (by decide), exec_rbEnddr_refused,
    fun within nonzero => ?_, fun zero => ?_⟩
  · have hpos : 0 < a.toNat := Nat.pos_of_ne_zero fun h0 => nonzero (BitVec.eq_of_toNat_eq h0)
    rw [exec_rbEnddr_consumed within, RingBuffer.consume, if_pos hpos]
    rfl
  · subst zero
    exact exec_rbEnddr_consumed (Nat.zero_le _)

/-- Settles O18: closing is one update and its answer. -/
theorem rbCloseRule : Obligations.RbCloseRule := fun d tag _ _ _ =>
  ⟨decode_plainRingRow (op := (.rbClose · tag)) (fun _ => rfl) d (by decide), rfl⟩

end Sys2Proof.Machine
end

section
/-! PROOFS. A ring-buffer operation touches its own ring buffer and looks at nothing but that buffer and its depth
(40_ringbuffer.md R120). -/

namespace Sys2Proof.Machine

/-- `t` is `s` with `RB[d]` replaced and one response sent for `i`, and `i` does the same in every other state with the
same `RB[d]` and depth. -/
def RingLocal (i : Instr) (d : Dir) (s t : State) : Prop :=
  ∃ b r, t = (s.setRb d b).respond r ∧ r.opc = i.opc ∧ r.tag = i.tag ∧
    ∀ s' : State, s'.rb d = s.rb d → s'.depth d = s.depth d → exec i s' = .next ((s'.setRb d b).respond r)

variable {i : Instr} {d : Dir} {tag : Tag} {a : Word} {s t : State}

theorem RingLocal.replaced {b : RingBuffer} {r : Response} (opc : r.opc = i.opc) (tag : r.tag = i.tag)
    (same : ∀ s' : State, s'.rb d = s.rb d → s'.depth d = s.depth d → exec i s' = .next ((s'.setRb d b).respond r)) :
    RingLocal i d s ((s.setRb d b).respond r) := ⟨b, r, rfl, opc, tag, same⟩

/-- An answer alone leaves `RB[d]` as it is. -/
theorem RingLocal.answered {r : Response} (opc : r.opc = i.opc) (tag : r.tag = i.tag)
    (same : ∀ s' : State, s'.rb d = s.rb d → s'.depth d = s.depth d → exec i s' = .next (s'.respond r)) :
    RingLocal i d s (s.respond r) := by
  have kept := RingLocal.replaced (b := s.rb d) opc tag fun s' rb depth => by
    rw [← rb, State.setRb_rb_same]
    exact same s' rb depth
  rwa [State.setRb_rb_same] at kept

/-! ### Operations that can refuse -/

theorem runRbInit_local (h : runRbInit d tag a s = .next t) : RingLocal (.rbInit d tag a) d s t := by
  unfold runRbInit at h
  split at h
  · next bad =>
    cases h
    exact .answered rfl rfl fun s' _ depth => exec_rbInit_refused (by rwa [depth])
  · next legal =>
    cases h
    exact .replaced rfl rfl fun s' rb depth => by rw [exec_rbInit_opened (by rwa [depth]), rb]

theorem runRbPush_local (h : runRbPush d tag a s = .next t) : RingLocal (.rbPush d tag a) d s t := by
  unfold runRbPush at h
  split at h
  · next wide =>
    cases h
    exact .answered rfl rfl fun s' _ _ => exec_rbPush_refused wide
  · next narrow =>
    have byte := not_not.mp narrow
    split at h
    · next full =>
      cases h
      exact .answered rfl rfl fun s' rb _ => exec_rbPush_full byte (by rwa [rb])
    · next room =>
      split at h
      · next pushed =>
        cases h
        exact .replaced rfl rfl fun s' rb _ => exec_rbPush_pushed byte (by rwa [rb]) (by rwa [rb])
      · cases h

theorem runRbPop_local (h : runRbPop d tag s = .next t) : RingLocal (.rbPop d tag) d s t := by
  unfold runRbPop at h
  split at h
  · next empty =>
    cases h
    exact .answered rfl rfl fun s' rb _ => exec_rbPop_empty (by rwa [rb])
  · next filled =>
    split at h
    · next popped =>
      cases h
      exact .replaced rfl rfl fun s' rb _ => exec_rbPop_popped (by rwa [rb]) (by rwa [rb])
    · cases h

theorem runRbEnddr_local (h : runRbEnddr d tag a s = .next t) : RingLocal (.rbEnddr d tag a) d s t := by
  unfold runRbEnddr at h
  split at h
  · next beyond =>
    cases h
    exact .answered rfl rfl fun s' rb _ => exec_rbEnddr_refused (by rwa [rb])
  · next within =>
    cases h
    exact .replaced rfl rfl fun s' rb _ => by rw [exec_rbEnddr_consumed (by rw [rb]; exact Nat.not_lt.mp within), rb]

/-! ### Operations that move or show many bytes -/

theorem runRbPushbulk_local {bytes : List Byte} (h : runRbPushbulk d tag bytes s = .next t) :
    RingLocal (.rbPushbulk d tag bytes) d s t := by
  unfold runRbPushbulk at h
  split at h
  · next pushed =>
    cases h
    exact .replaced rfl rfl fun s' rb _ => exec_rbPushbulk (by rwa [rb])
  · cases h

theorem runRbPopbulk_local (h : runRbPopbulk d tag a s = .next t) : RingLocal (.rbPopbulk d tag a) d s t := by
  unfold runRbPopbulk at h
  split at h
  · next popped =>
    cases h
    exact .replaced rfl rfl fun s' rb _ => exec_rbPopbulk (by rwa [rb])
  · cases h

theorem runRbBegindr_local (h : runRbBegindr d tag a s = .next t) : RingLocal (.rbBegindr d tag a) d s t := by
  unfold runRbBegindr at h
  split at h
  · next exposed =>
    cases h
    exact .replaced rfl rfl fun s' rb _ => by rw [exec_rbBegindr (by rwa [rb]), rb]
  · cases h

/-! ### Operations that always succeed -/

/-- An operation that answers from `RB[d]` alone. -/
theorem RingLocal.query {answer : RingBuffer → Response} (always : ∀ s', exec i s' = .next (s'.respond (answer (s'.rb d))))
    (opc : ∀ b, (answer b).opc = i.opc) (tag : ∀ b, (answer b).tag = i.tag) (h : exec i s = .next t) :
    RingLocal i d s t := by
  cases (always s).symm.trans h
  exact .answered (opc _) (tag _) fun s' rb _ => by rw [always, rb]

theorem runRbClose_local (h : runRbClose d tag s = .next t) : RingLocal (.rbClose d tag) d s t := by
  cases h
  exact .replaced rfl rfl fun s' rb _ => by rw [exec, runRbClose, rb]

/-- Settles O19, operation by operation. -/
theorem ringOperationsAreLocal : Obligations.RingOperationsAreLocal := by
  intro i d s t dir h
  show RingLocal i d s t
  cases i with
  | rbInit => cases dir; exact runRbInit_local h
  | rbPush => cases dir; exact runRbPush_local h
  | rbPop => cases dir; exact runRbPop_local h
  | rbPushbulk => cases dir; exact runRbPushbulk_local h
  | rbPopbulk => cases dir; exact runRbPopbulk_local h
  | rbBegindr => cases dir; exact runRbBegindr_local h
  | rbEnddr => cases dir; exact runRbEnddr_local h
  | rbClose => cases dir; exact runRbClose_local h
  | rbFree _ tag =>
    cases dir
    exact .query (answer := fun b => { opc := Opc.rbFree, tag := tag, d0 := wordOfNat b.free })
      (fun _ => rfl) (fun _ => rfl) (fun _ => rfl) h
  | rbUsed _ tag =>
    cases dir
    exact .query (answer := fun b => { opc := Opc.rbUsed, tag := tag, d0 := wordOfNat b.inQueue })
      (fun _ => rfl) (fun _ => rfl) (fun _ => rfl) h
  | rbCap _ tag =>
    cases dir
    exact .query (answer := fun b => { opc := Opc.rbCap, tag := tag, d0 := wordOfNat b.size })
      (fun _ => rfl) (fun _ => rfl) (fun _ => rfl) h
  | rbStatus _ tag =>
    cases dir
    exact .query (answer := fun b => { opc := Opc.rbStatus, tag := tag, d0 := b.statusCode })
      (fun _ => rfl) (fun _ => rfl) (fun _ => rfl) h
  | _ => cases dir

end Sys2Proof.Machine
end

section
/-! PROOFS. A ring buffer is a first-in first-out queue over every sequence of its operations (40_ringbuffer.md R133): each
operation passes bytes in at the back and out at the front, and the ledger of the responses records exactly those. -/

namespace Sys2Proof.Machine

/-! ### Bytes passing through a buffer -/

/-- From `b` to `c` the bytes `ins` came in at the back and `outs` left at the front. -/
structure RingBuffer.Flow (b c : RingBuffer) (ins outs : List Byte) : Prop where
  queue : b.contents ++ ins = outs ++ c.contents
  valid : c.valid = b.valid
  /-- nothing passes through a closed buffer -/
  closed : b.valid = false → ins = [] ∧ outs = []

section Flows

variable {depth : Nat} {b c : RingBuffer}

/-- No byte moves where the buffered bytes stay. -/
theorem RingBuffer.Flow.none (contents : c.contents = b.contents) (valid : c.valid = b.valid) : b.Flow c [] [] where
  queue := by rw [contents, List.append_nil, List.nil_append]
  valid := valid
  closed _ := ⟨rfl, rfl⟩

theorem RingBuffer.push_flow (h : b.ok depth) (hm : b.mem.ok depth) (room : b.inQueue ≠ b.size) (x : Byte) :
    ∃ c, b.push x = some c ∧ c.ok depth ∧ c.mem.ok depth ∧ b.Flow c [x] [] := by
  obtain ⟨c, pushed, ok, mem, frame, queued, -⟩ := RingBuffer.push_spec h hm room x
  refine ⟨c, pushed, ok, mem, queued.symm, by rw [frame], fun invalid => absurd ?_ room⟩
  obtain ⟨-, hsize, -, -, hcount, -⟩ := h.closed invalid
  exact hcount.trans hsize.symm

theorem RingBuffer.pop_flow (h : b.ok depth) (hm : b.mem.ok depth) (filled : b.inQueue ≠ 0) :
    ∃ x c, b.pop = some (x, c) ∧ c.ok depth ∧ c.mem.ok depth ∧ b.Flow c [] [x] := by
  obtain ⟨x, c, popped, ok, -, frame, queued⟩ := RingBuffer.pop_spec h filled
  refine ⟨x, c, popped, ok, by rw [frame]; exact hm, by rw [List.append_nil, queued]; rfl, by rw [frame],
    fun invalid => absurd ?_ filled⟩
  obtain ⟨-, -, -, -, hcount, -⟩ := h.closed invalid
  exact hcount

theorem RingBuffer.pushBulk_flow (h : b.ok depth) (hm : b.mem.ok depth) (bytes : List Byte) :
    ∃ c, b.pushBulk bytes = some (min bytes.length b.free, c) ∧ c.ok depth ∧ c.mem.ok depth ∧
      b.Flow c (bytes.take b.free) [] := by
  obtain ⟨c, pushed, ok, mem, frame, queued, -⟩ := RingBuffer.pushBulk_spec h hm bytes
  refine ⟨c, pushed, ok, mem, queued.symm, by rw [frame], fun invalid => ⟨?_, rfl⟩⟩
  obtain ⟨-, hsize, -⟩ := h.closed invalid
  rw [RingBuffer.free, hsize, Nat.zero_sub, List.take_zero]

theorem RingBuffer.popBulk_flow (h : b.ok depth) (hm : b.mem.ok depth) (n : Nat) :
    ∃ c, b.popBulk n = some (b.contents.take n, c) ∧ c.ok depth ∧ c.mem.ok depth ∧
      b.Flow c [] (b.contents.take n) := by
  obtain ⟨c, popped, ok, frame, queued⟩ := RingBuffer.popBulk_spec h n
  refine ⟨c, popped, ok, by rw [frame]; exact hm, ?_, by rw [frame], fun invalid => ⟨rfl, ?_⟩⟩
  · rw [queued, List.append_nil, List.take_append_drop]
  · obtain ⟨-, -, -, -, hcount, -⟩ := h.closed invalid
    rw [RingBuffer.contents_of_empty hcount, List.take_nil]

/-- RB_ENDDR delivers the oldest bytes of its window, which lies ahead of the end of storage (R131). -/
theorem RingBuffer.consume_flow (h : b.ok depth) (hm : b.mem.ok depth) {n : Nat} (within : n ≤ b.exposed) :
    (b.consume n).ok depth ∧ (b.consume n).mem.ok depth ∧
      b.Flow (b.consume n) [] ((List.range n).map fun k => b.mem.read (b.lastChar + k)) := by
  obtain ⟨ok, queued, -, -⟩ := RingBuffer.consume_spec h within
  obtain ⟨buffered, ahead⟩ := h.exposed_le
  refine ⟨ok, by rw [RingBuffer.consume_frame]; exact hm, ?_, by rw [RingBuffer.consume_frame],
    fun invalid => ⟨rfl, ?_⟩⟩
  · rw [← RingBuffer.contents_take_run (by omega) (by omega), queued, List.append_nil, List.take_append_drop]
  · obtain ⟨-, -, -, -, -, hexposed⟩ := h.closed invalid
    rw [show n = 0 by omega]
    rfl

end Flows

/-! ### The ledger and the buffer -/

/-- What a ledger says of a buffer: the bytes that came out are the first of those that went in, and an open buffer holds
the rest. A closed buffer has lost that rest (R132). -/
structure Ledger.Tracks (l : Ledger) (b : RingBuffer) : Prop where
  delivered : l.delivered <+: l.accepted
  buffered : b.valid = true → l.accepted = l.delivered ++ b.contents

/-- Bytes that pass through the buffer and are entered in the ledger keep it right. -/
theorem Ledger.Tracks.flow {l : Ledger} {b c : RingBuffer} {ins outs : List Byte} (h : l.Tracks b)
    (flow : b.Flow c ins outs) : Ledger.Tracks ⟨l.accepted ++ ins, l.delivered ++ outs⟩ c := by
  have opened (valid : b.valid = true) : l.accepted ++ ins = l.delivered ++ outs ++ c.contents := by
    rw [h.buffered valid, List.append_assoc, flow.queue, List.append_assoc]
  refine ⟨?_, fun valid => opened (flow.valid ▸ valid)⟩
  cases valid : b.valid with
  | true => exact ⟨c.contents, (opened valid).symm⟩
  | false =>
    obtain ⟨rfl, rfl⟩ := flow.closed valid
    simpa using h.delivered

section Steps

variable {d : Dir} {i : Instr} {tag : Tag} {a : Word} {s t : State}

/-- What one operation keeps: the parameters, the invariants of its buffer and the ledger's account of it. -/
structure FifoStep (d : Dir) (i : Instr) (s t : State) : Prop where
  params : t.params = s.params
  ringOk : t.ringOk d
  tracks : ∀ l : Ledger, l.Tracks (s.rb d) → (l.after d i s t).Tracks (t.rb d)

/-- `RB[d]` replaced by a buffer that meets the invariants, with the ledger right afterwards. -/
theorem FifoStep.replaced {c : RingBuffer} {r : Response} (ok : c.ok (s.depth d)) (mem : c.mem.ok (s.depth d))
    (tracks : ∀ l : Ledger, l.Tracks (s.rb d) → (l.after d i s ((s.setRb d c).respond r)).Tracks c) :
    FifoStep d i s ((s.setRb d c).respond r) where
  params := by simp
  ringOk := by
    rw [State.ringOk, State.respond_rb, State.setRb_rb_self, State.respond_depth, State.setRb_depth]
    exact ⟨ok, mem⟩
  tracks l h := by
    rw [State.respond_rb, State.setRb_rb_self]
    exact tracks l h

/-- An answer alone, with nothing to enter. -/
theorem FifoStep.answered {r : Response} (hs : s.ringOk d) (unentered : ∀ l : Ledger, l.after d i s (s.respond r) = l) :
    FifoStep d i s (s.respond r) where
  params := State.respond_params s r
  ringOk := by
    rw [State.ringOk, State.respond_rb, State.respond_depth]
    exact hs
  tracks l h := by
    rw [unentered, State.respond_rb]
    exact h

/-- A refused operation is not entered. -/
theorem FifoStep.refused {r : Response} (hs : s.ringOk d) (refused : r.status ≠ .ok) : FifoStep d i s (s.respond r) :=
  .answered hs fun l => by
    rw [Ledger.after, State.lastAnswer_respond]
    exact if_neg refused

/-- Bytes passed through the buffer and entered as the response reports them. -/
theorem FifoStep.moved {c : RingBuffer} {r : Response} {ins outs : List Byte} (ok : c.ok (s.depth d))
    (mem : c.mem.ok (s.depth d)) (flow : (s.rb d).Flow c ins outs)
    (entered : ∀ l : Ledger, l.after d i s ((s.setRb d c).respond r) = ⟨l.accepted ++ ins, l.delivered ++ outs⟩) :
    FifoStep d i s ((s.setRb d c).respond r) :=
  .replaced ok mem fun l h => by
    rw [entered]
    exact h.flow flow

/-! ### Each operation -/

theorem exec_rbInit_fifo (hs : s.ringOk d) : ∃ t, exec (.rbInit d tag a) s = .next t ∧ FifoStep d (.rbInit d tag a) s t := by
  by_cases bad : a = 0#32 ∨ s.depth d < a.toNat
  · exact ⟨_, exec_rbInit_refused bad, .refused hs nofun⟩
  · obtain ⟨nonzero, fits⟩ := not_or.mp bad
    have hpos : a.toNat ≠ 0 := fun h0 => nonzero (BitVec.eq_of_toNat_eq h0)
    obtain ⟨ok, empty⟩ := RingBuffer.openAt_ok (b := s.rb d) (Nat.pos_of_ne_zero hpos) (Nat.le_of_not_lt fits)
    refine ⟨_, exec_rbInit_opened bad, .replaced ok hs.2 fun l _ => ?_⟩
    rw [Ledger.after, State.lastAnswer_respond]
    exact ⟨List.nil_prefix, fun _ => empty.symm⟩

theorem exec_rbPush_fifo (hs : s.ringOk d) : ∃ t, exec (.rbPush d tag a) s = .next t ∧ FifoStep d (.rbPush d tag a) s t := by
  by_cases byte : isByte a
  · by_cases full : (s.rb d).inQueue = (s.rb d).size
    · exact ⟨_, exec_rbPush_full byte full, .refused hs nofun⟩
    · obtain ⟨c, pushed, ok, mem, flow⟩ := RingBuffer.push_flow hs.1 hs.2 full (byteOf a)
      refine ⟨_, exec_rbPush_pushed byte full pushed, .moved ok mem flow fun l => ?_⟩
      rw [Ledger.after, State.lastAnswer_respond, List.append_nil]
      rfl
  · exact ⟨_, exec_rbPush_refused byte, .refused hs nofun⟩

/-- The byte of a result word made of a byte. -/
theorem setWidth_wordOfByte (x : Byte) : (wordOfByte x).setWidth 8 = x := by
  simp [wordOfByte]

theorem exec_rbPop_fifo (hs : s.ringOk d) : ∃ t, exec (.rbPop d tag) s = .next t ∧ FifoStep d (.rbPop d tag) s t := by
  by_cases empty : (s.rb d).inQueue = 0
  · exact ⟨_, exec_rbPop_empty empty, .refused hs nofun⟩
  · obtain ⟨x, c, popped, ok, mem, flow⟩ := RingBuffer.pop_flow hs.1 hs.2 empty
    refine ⟨_, exec_rbPop_popped empty popped, .moved ok mem flow fun l => ?_⟩
    rw [Ledger.after, State.lastAnswer_respond, List.append_nil]
    show Ledger.mk l.accepted (l.delivered ++ [(wordOfByte x).setWidth 8]) = _
    rw [setWidth_wordOfByte]

/-- The count of a bulk push is the exact number, so that the ledger enters the bytes that fitted (R124). -/
theorem exec_rbPushbulk_fifo {bytes : List Byte} (legal : s.params.legal) (hs : s.ringOk d) :
    ∃ t, exec (.rbPushbulk d tag bytes) s = .next t ∧ FifoStep d (.rbPushbulk d tag bytes) s t := by
  obtain ⟨c, pushed, ok, mem, flow⟩ := RingBuffer.pushBulk_flow hs.1 hs.2 bytes
  refine ⟨_, exec_rbPushbulk pushed, .moved ok mem flow fun l => ?_⟩
  have hsize := State.rb_size_lt legal hs
  have exact_count : (wordOfNat (min bytes.length (s.rb d).free)).toNat = min bytes.length (s.rb d).free :=
    wordOfNat_toNat (by unfold RingBuffer.free; omega)
  have fitted : bytes.take (min bytes.length (s.rb d).free) = bytes.take (s.rb d).free := by
    rw [Nat.min_comm, ← List.take_take, List.take_length]
  rw [Ledger.after, State.lastAnswer_respond, List.append_nil]
  show Ledger.mk (l.accepted ++ bytes.take (wordOfNat _).toNat) l.delivered = _
  rw [exact_count, fitted]

theorem exec_rbPopbulk_fifo (hs : s.ringOk d) :
    ∃ t, exec (.rbPopbulk d tag a) s = .next t ∧ FifoStep d (.rbPopbulk d tag a) s t := by
  obtain ⟨c, popped, ok, mem, flow⟩ := RingBuffer.popBulk_flow hs.1 hs.2 a.toNat
  refine ⟨_, exec_rbPopbulk popped, .moved ok mem flow fun l => ?_⟩
  rw [Ledger.after, State.lastAnswer_respond, List.append_nil]
  rfl

theorem exec_rbBegindr_fifo (hs : s.ringOk d) :
    ∃ t, exec (.rbBegindr d tag a) s = .next t ∧ FifoStep d (.rbBegindr d tag a) s t := by
  obtain ⟨exposed, ok⟩ := RingBuffer.expose_spec hs.1 a.toNat
  refine ⟨_, exec_rbBegindr exposed, .moved ok hs.2 (.none rfl rfl) fun l => ?_⟩
  rw [Ledger.after, State.lastAnswer_respond, List.append_nil, List.append_nil]
  rfl

theorem exec_rbEnddr_fifo (hs : s.ringOk d) :
    ∃ t, exec (.rbEnddr d tag a) s = .next t ∧ FifoStep d (.rbEnddr d tag a) s t := by
  by_cases within : a.toNat ≤ (s.rb d).exposed
  · obtain ⟨ok, mem, flow⟩ := RingBuffer.consume_flow hs.1 hs.2 within
    refine ⟨_, exec_rbEnddr_consumed within, .moved ok mem flow fun l => ?_⟩
    rw [Ledger.after, State.lastAnswer_respond, List.append_nil]
    rfl
  · exact ⟨_, exec_rbEnddr_refused (Nat.lt_of_not_le within), .refused hs nofun⟩

theorem exec_rbClose_fifo (hs : s.ringOk d) :
    ∃ t, exec (.rbClose d tag) s = .next t ∧ FifoStep d (.rbClose d tag) s t := by
  refine ⟨_, rfl, .replaced (RingBuffer.close_ok _ _).1 hs.2 fun l h => ?_⟩
  rw [Ledger.after, State.lastAnswer_respond]
  exact ⟨h.delivered, fun valid => Bool.noConfusion valid⟩

/-- Every operation of a direction succeeds in a state whose buffer meets its invariants, and keeps them and the ledger. -/
theorem exec_ring_fifo (legal : s.params.legal) (hs : s.ringOk d) (dir : ringDirOf i = some d) :
    ∃ t, exec i s = .next t ∧ FifoStep d i s t := by
  cases i with
  | rbInit => cases dir; exact exec_rbInit_fifo hs
  | rbPush => cases dir; exact exec_rbPush_fifo hs
  | rbPop => cases dir; exact exec_rbPop_fifo hs
  | rbPushbulk => cases dir; exact exec_rbPushbulk_fifo legal hs
  | rbPopbulk => cases dir; exact exec_rbPopbulk_fifo hs
  | rbBegindr => cases dir; exact exec_rbBegindr_fifo hs
  | rbEnddr => cases dir; exact exec_rbEnddr_fifo hs
  | rbClose => cases dir; exact exec_rbClose_fifo hs
  | rbFree | rbUsed | rbCap | rbStatus =>
    cases dir
    refine ⟨_, rfl, .answered hs fun l => ?_⟩
    rw [Ledger.after, State.lastAnswer_respond]
    rfl
  | _ => cases dir

end Steps

/-- A sequence of operations runs to its end, and the ledger's account of the buffer is right there. -/
theorem runRing_tracks {d : Dir} (is : List Instr) {s : State} {l : Ledger} (legal : s.params.legal) (hs : s.ringOk d)
    (dir : ∀ i ∈ is, ringDirOf i = some d) (tracks : l.Tracks (s.rb d)) :
    ∃ t m, runRing d is s l = some (t, m) ∧ t.ringOk d ∧ m.Tracks (t.rb d) := by
  induction is generalizing s l with
  | nil => exact ⟨s, l, rfl, hs, tracks⟩
  | cons i is ih =>
    obtain ⟨first, rest⟩ := List.forall_mem_cons.mp dir
    obtain ⟨t, done, step⟩ := exec_ring_fifo legal hs first
    obtain ⟨u, m, ran, ok, final⟩ := ih (step.params ▸ legal) step.ringOk rest (step.tracks l tracks)
    refine ⟨u, m, ?_, ok, final⟩
    rw [runRing, done]
    exact ran

/-- Settles O20, by induction on the sequence, from the bytes buffered at the start as those accepted. -/
theorem ringBufferIsFifo : Obligations.RingBufferIsFifo := by
  intro d is s legal hs dir
  have start : Ledger.Tracks { accepted := (s.rb d).contents, delivered := [] } (s.rb d) :=
    ⟨List.nil_prefix, fun _ => rfl⟩
  obtain ⟨t, l, ran, ok, tracks⟩ := runRing_tracks is legal hs dir start
  have count := ok.1.inQueue_le
  exact ⟨t, l, ran, tracks.delivered, count, Nat.add_sub_cancel' count, ok⟩

end Sys2Proof.Machine
end

section
/-! PROOFS. Reading in place and reading out: a direct read ended in full leaves what a bulk pop of its window leaves, and
the rest of a wrapped window is shown next, from index 0 (40_ringbuffer.md R134). -/

namespace Sys2Proof.Machine

/-! ### The buffer -/

section Buffers

variable {depth : Nat} {b : RingBuffer} {n : Nat}

/-- The buffer after a direct read of the whole window. -/
def RingBuffer.readInPlace (b : RingBuffer) (n : Nat) : RingBuffer :=
  ({ b with exposed := b.windowLength n } : RingBuffer).consume (b.windowLength n)

/-- Consuming the whole window pops its bytes, but for the exposure, which ends even where no byte moved. -/
theorem RingBuffer.readInPlace_popBulk (h : b.ok depth) (n : Nat) :
    ∃ c, b.popBulk (b.windowLength n) = some (b.contents.take (b.windowLength n), c) ∧
      b.readInPlace n = if b.windowLength n = 0 then { c with exposed := 0 } else c := by
  obtain ⟨c, popped, -, frame, -⟩ := RingBuffer.popBulk_spec h (b.windowLength n)
  obtain ⟨-, -, moved, unmoved⟩ := RingBuffer.consume_spec (RingBuffer.expose_spec h n).2 le_rfl
  refine ⟨c, popped, ?_⟩
  rw [Nat.min_eq_left (h.windowLength_le n).1] at frame
  split
  · next empty =>
    rw [RingBuffer.readInPlace, unmoved empty, frame, empty]
    rcases h with ⟨-, -, -, ⟨hl, -⟩, -⟩ | ⟨-, hs, hl, -⟩
    · simp [Nat.mod_eq_of_lt hl]
    · simp [hs, hl]
  · next nonempty =>
    have hpos := Nat.pos_of_ne_zero nonempty
    rw [RingBuffer.readInPlace, moved hpos, frame, if_pos hpos]

theorem RingBuffer.readInPlace_ok (h : b.ok depth) (n : Nat) : (b.readInPlace n).ok depth :=
  (RingBuffer.consume_spec (RingBuffer.expose_spec h n).2 le_rfl).1

/-- A window that wraps ends at the end of storage, and the read cursor then stands at index 0. -/
theorem RingBuffer.readInPlace_wrapped (h : b.ok depth) (wrapped : b.windowWrapped n = true) :
    b.windowLength n < b.want n ∧ (b.readInPlace n).lastChar = 0 ∧ (b.readInPlace n).size = b.size ∧
      (b.readInPlace n).inQueue = b.inQueue - b.windowLength n := by
  have short : b.toEnd < b.want n := of_decide_eq_true wrapped
  have length : b.windowLength n = b.toEnd := if_pos short
  have hwant : b.want n ≤ b.inQueue := Nat.min_le_right _ _
  rcases h with ⟨-, -, -, ⟨hl, -⟩, -⟩ | ⟨-, -, -, -, hq, -⟩
  · have hpos : 0 < b.windowLength n := by
      rw [length, RingBuffer.toEnd]
      omega
    have reached : b.lastChar + b.windowLength n = b.size := by
      rw [length, RingBuffer.toEnd]
      omega
    rw [RingBuffer.readInPlace, RingBuffer.consume, if_pos hpos]
    exact ⟨length ▸ short, if_pos reached, rfl, rfl⟩
  · omega

/-- From index 0 a window is never cut short. -/
theorem RingBuffer.window_of_start (start : b.lastChar = 0) (count : b.inQueue ≤ b.size) (asked : n ≤ b.inQueue) :
    b.windowLength n = n ∧ b.windowWrapped n = false := by
  have whole : b.want n = n := Nat.min_eq_left asked
  have uncut : ¬ b.toEnd < b.want n := by
    rw [whole, RingBuffer.toEnd, start]
    omega
  exact ⟨(if_neg uncut).trans whole, decide_eq_false uncut⟩

end Buffers

/-! ### The state -/

theorem State.respond_setRb (s : State) (r : Response) (d : Dir) (b : RingBuffer) :
    (s.respond r).setRb d b = (s.setRb d b).respond r := by
  unfold State.respond State.send
  rw [State.setRb_issuer]
  cases d <;> cases s.issuer <;> rfl

/-- A response is seen in the responses sent and nowhere else. -/
theorem State.respond_forget (s : State) (r : Response) (h w : List Response) :
    ({ s.respond r with outH := h, outW := w } : State) = { s with outH := h, outW := w } := by
  unfold State.respond State.send
  cases s.issuer <;> rfl

theorem State.setRb_forget (s : State) (d : Dir) (b : RingBuffer) :
    ({ s.setRb d b with outH := s.outH, outW := s.outW } : State) = s.setRb d b := by
  cases d <;> rfl

section Reads

variable {d : Dir} {s : State} {a : Word}

theorem State.windowLength_toNat (legal : s.params.legal) (hs : s.ringOk d) (n : Nat) :
    (wordOfNat ((s.rb d).windowLength n)).toNat = (s.rb d).windowLength n := by
  have hsize := State.rb_size_lt legal hs
  have hwindow := (hs.1.windowLength_le n).2
  exact wordOfNat_toNat (by omega)

/-- RB_BEGINDR and then RB_ENDDR of the whole window: what the first answers and the state after both. -/
theorem exec_readInPlace (legal : s.params.legal) (hs : s.ringOk d) (tag tag' : Tag) (a : Word) :
    ∃ s1 r1, exec (.rbBegindr d tag a) s = .next s1 ∧ s1.lastAnswer = some r1 ∧
      r1.d1 = wordOfNat ((s.rb d).windowLength a.toNat) ∧
      r1.bytes = (s.rb d).contents.take ((s.rb d).windowLength a.toNat) ∧
      r1.wrapped = (s.rb d).windowWrapped a.toNat ∧
      exec (.rbEnddr d tag' r1.d1) s1 =
        .next (((s.setRb d ((s.rb d).readInPlace a.toNat)).respond r1).respond
          { opc := Opc.rbEnddr, tag := tag', d0 := r1.d1 }) := by
  refine ⟨_, _, exec_rbBegindr (RingBuffer.expose_spec hs.1 a.toNat).1, State.lastAnswer_respond _ _, rfl, rfl, rfl, ?_⟩
  have length := State.windowLength_toNat legal hs a.toNat
  rw [exec_rbEnddr_consumed (by simp [length])]
  simp only [State.respond_rb, State.setRb_rb_self, length, State.respond_setRb, State.setRb_setRb]
  rfl

/-- After a window that wrapped, a direct read of the rest shows it whole from index 0. -/
theorem exec_rbBegindr_rest (legal : s.params.legal) (hs : s.ringOk d) (wrapped : (s.rb d).windowWrapped a.toNat = true)
    {u : State} (hu : u.rb d = (s.rb d).readInPlace a.toNat) (tag : Tag) :
    ∃ s3 r4, exec (.rbBegindr d tag (wordOfNat ((s.rb d).want a.toNat) - wordOfNat ((s.rb d).windowLength a.toNat))) u
        = .next s3 ∧ s3.lastAnswer = some r4 ∧ r4.d0 = 0#32 ∧ r4.wrapped = false ∧
      r4.d1.toNat = (s.rb d).want a.toNat - (s.rb d).windowLength a.toNat := by
  obtain ⟨short, start, size, count⟩ := RingBuffer.readInPlace_wrapped hs.1 wrapped
  have hsize := State.rb_size_lt legal hs
  have hcount := hs.1.inQueue_le
  have hwant : (s.rb d).want a.toNat ≤ (s.rb d).inQueue := Nat.min_le_right _ _
  have rest : (wordOfNat ((s.rb d).want a.toNat) - wordOfNat ((s.rb d).windowLength a.toNat)).toNat =
      (s.rb d).want a.toNat - (s.rb d).windowLength a.toNat := by
    have want_toNat := wordOfNat_toNat (n := (s.rb d).want a.toNat) (by omega)
    have length_toNat := State.windowLength_toNat legal hs a.toNat
    rw [BitVec.toNat_sub_of_le (BitVec.le_def.mpr (by omega)), want_toNat, length_toNat]
  obtain ⟨length, unwrapped⟩ := RingBuffer.window_of_start
    (n := (s.rb d).want a.toNat - (s.rb d).windowLength a.toNat) start (by omega) (by omega)
  refine ⟨_, _, exec_rbBegindr (RingBuffer.expose_spec (hu ▸ RingBuffer.readInPlace_ok hs.1 a.toNat) _).1,
    State.lastAnswer_respond _ _, ?_, ?_, ?_⟩
  · rw [hu, start]
    rfl
  · rw [hu, rest]
    exact unwrapped
  · rw [hu, rest, length]
    exact wordOfNat_toNat (by omega)

/-- Settles O21: both ways leave the same buffer, and the response is the only other thing an operation writes. -/
theorem directReadEqualsBulkPop : Obligations.DirectReadEqualsBulkPop := by
  intro d g1 g2 g3 g4 a s legal hs
  obtain ⟨s1, r1, begun, answered, hd1, hbytes, hwrapped, ended⟩ := exec_readInPlace legal hs g1 g2 a
  obtain ⟨c, popped, same⟩ := RingBuffer.readInPlace_popBulk hs.1 a.toNat
  have length : r1.d1.toNat = (s.rb d).windowLength a.toNat := hd1 ▸ State.windowLength_toNat legal hs a.toNat
  rw [← length] at popped same
  refine ⟨s1, _, _, r1, _, begun, answered, ended, exec_rbPopbulk popped, State.lastAnswer_respond _ _, ?_, ?_, ?_, ?_⟩
  · rw [hbytes, length]
  · rw [List.length_take, RingBuffer.contents_length, length, Nat.min_eq_left (hs.1.windowLength_le _).1, hd1]
  · have empty : r1.d1 = 0#32 ↔ r1.d1.toNat = 0 := BitVec.toNat_inj.symm
    simp only [State.respond_forget, State.setRb_forget, State.respond_rb, State.setRb_rb_self, State.setRb_setRb, same,
      empty]
    split <;> rfl
  · intro wrapped
    rw [hwrapped] at wrapped
    rw [length, hd1]
    exact exec_rbBegindr_rest legal hs wrapped (by simp) g4

end Reads

end Sys2Proof.Machine
end

section
/-! PROOFS. The rules of the line-state operations (41_linestate.md R150 to R160, R172; 44_transfer_watermark.md R269): one
equation for each way in which an operation ends, in every state, and what the acquisition computes on a line with legal
parameters. -/

namespace Sys2Proof.Machine

/-! ### Frames of the rows whose selector is zero (R90 to R92) -/

/-- A frame whose fields are read as an instruction, with a payload of the announced length, decodes to it. -/
theorem decode_row {o l : Byte} {tag : Tag} {a b : Word} {bytes : List Byte} {i : Instr}
    (row : decodeFields o l tag a b bytes = .ok i)
    (length : bytes.length = if o = 0x03#8 ∨ o = 0x20#8 ∨ o = 0x22#8 then a.toNat else 0) :
    decode (mkFrame o l tag a b) bytes = .ok i := by
  rw [decode_mkFrame, row]
  exact if_pos length

/-- The same for an operation that carries no payload. -/
theorem decode_plainRow {o l : Byte} {tag : Tag} {a b : Word} {i : Instr}
    (row : decodeFields o l tag a b [] = .ok i) (plain : ¬ (o = 0x03#8 ∨ o = 0x20#8 ∨ o = 0x22#8)) :
    decode (mkFrame o l tag a b) [] = .ok i :=
  decode_row row (if_neg plain).symm

/-! ### The state word -/

/-- What a response shows of `State`, with the mask written out (R31). -/
theorem State.visibleLine_eq (s : State) : s.visibleLine = s.line &&& 0xE7A7801E#32 := rfl

/-- Settles O22: the change-state path, with its mask, its wake-up and its frame written out. -/
theorem changeStateRule : Obligations.ChangeStateRule := by
  rintro s newBits mask _ _ rfl rfl
  have sent : ∀ (c : Prop) [Decidable c] (n : Notification),
      (s.outN ++ if c then [n] else []) = if c then s.outN ++ [n] else s.outN := by
    intro c _ n
    split
    · rfl
    · exact List.append_nil _
  rw [State.changeState_eq, sent]
  rfl

/-- A change of the whole word to zero, from a word that is not zero (R155). -/
theorem State.changeState_clear {s : State} (set : s.line ≠ 0#32) :
    s.changeState 0#32 Mask.all =
      { s with
        line := 0#32
        watchMask := if s.line &&& s.watchMask ≠ 0#32 then 0#32 else s.watchMask
        slots := if s.line &&& s.watchMask ≠ 0#32 then s.slots.map (Option.map fun x => { x with awake := true })
          else s.slots
        outN := s.outN ++ [.stateChanged 0#32] } := by
  rw [changeStateRule s 0#32 Mask.all 0#32 s.line (mergeBits_all s.line 0#32).symm BitVec.xor_zero.symm, if_pos set]

theorem ne_zero_of_hasBit {w bit : Word} (h : hasBit w bit) : w ≠ 0#32 := by
  rintro rfl
  exact h BitVec.zero_and

/-! ### The acquisition (R153) -/

/-- The queue bits of an emptied buffer of nonzero size: `EMPTY`, and `LOW` if its threshold is not zero. -/
theorem dirBits_openAt (b : RingBuffer) {depth : Nat} (pos : 1 ≤ depth) (wm : Watermarks) (full empty low high : Word) :
    dirBits (b.openAt depth) wm full empty low high = empty ||| bitIf (0 < wm.lowWater) low := by
  have room : (b.openAt depth).free ≠ 0 := Nat.ne_of_gt pos
  have count : (b.openAt depth).inQueue = 0 := rfl
  rw [dirBits, fullEmptyBits, if_neg room, if_pos count, count]
  exact BitVec.or_zero

/-- The word that an acquisition writes, for legal parameters. -/
theorem State.rebuild_word {s : State} (legal : s.params.legal) :
    Mask.defaultPattern ||| s.rebuild.queueBits =
      0xA0200000#32 ||| 0x04040000#32 ||| (if 0 < 2 * s.params.depthTx / 3 / 2 then 0x02000000#32 else 0#32) |||
        (if 0 < 2 * s.params.depthRx / 3 / 2 then 0x00020000#32 else 0#32) := by
  obtain ⟨⟨posRx, -⟩, ⟨posTx, -⟩, -⟩ := legal
  have tx : txBits s.rebuild.tx s.rebuild.wmTx =
      0x04000000#32 ||| if 0 < 2 * s.params.depthTx / 3 / 2 then 0x02000000#32 else 0#32 :=
    dirBits_openAt s.tx posTx (.ofDepth s.params.depthTx) ..
  have rx : rxBits s.rebuild.rx s.rebuild.wmRx =
      0x00040000#32 ||| if 0 < 2 * s.params.depthRx / 3 / 2 then 0x00020000#32 else 0#32 :=
    dirBits_openAt s.rx posRx (.ofDepth s.params.depthRx) ..
  have empties : (0x04040000#32 : Word) = 0x04000000#32 ||| 0x00040000#32 := by decide
  rw [State.queueBits, tx, rx, empties]
  simp only [Mask.defaultPattern]
  ac_rfl

/-! ### The interest of a parked ACQUIRE (R45) -/

theorem interestOf_explicit (mask : Word) : interestOf mask false = mask := BitVec.or_zero

/-- A parked ACQUIRE is interested in `ACQUIRED` alone. -/
theorem Wait.ok.interest_acq {x : Wait} (ok : x.ok) (kind : x.kind = .acq) : x.interest = Bit.acquired := by
  obtain ⟨_, target, mask, auto, awake, port⟩ := x
  obtain rfl := kind
  obtain ⟨-, rfl, rfl⟩ := ok
  exact interestOf_explicit Bit.acquired

/-! ### How each operation ends -/

section Endings

variable {blocking : Bool} {tag : Tag} {a b : Word} {s : State}

theorem not_terminating (running : s.terminating = false) : ¬ s.terminating = true := Bool.eq_false_iff.mp running

theorem exec_acquire_offline (stopped : s.terminating = true) :
    exec (.acquire blocking tag) s = .next (s.respond { status := .offline, opc := Opc.acquire, tag := tag }) :=
  if_pos stopped

theorem exec_acquire_free (running : s.terminating = false) (released : ¬ hasBit s.line Bit.acquired) :
    exec (.acquire blocking tag) s =
      .next (s.acquisition.respond { opc := Opc.acquire, tag := tag, d0 := s.acquisition.visibleLine }) :=
  (if_neg (not_terminating running)).trans (if_pos released)

/-- An owned line refuses a caller that does not block. -/
theorem exec_acquire_contended (running : s.terminating = false) (held : hasBit s.line Bit.acquired) :
    exec (.acquire false tag) s =
      .next (s.respond { status := .exclusiveAccess, opc := Opc.acquire, tag := tag }) :=
  (if_neg (not_terminating running)).trans (if_neg (not_not.mpr held))

/-- On an owned line a caller that blocks comes down to its slot. -/
theorem exec_acquire_blocking (running : s.terminating = false) (held : hasBit s.line Bit.acquired) :
    exec (.acquire true tag) s =
      if ¬ s.canPark tag then .next (s.respond { status := .badArgument, opc := Opc.acquire, tag := tag })
      else .next (s.park tag
        { kind := .acq, target := 0#32, mask := Bit.acquired, auto := false, awake := false, port := s.issuer }) :=
  (if_neg (not_terminating running)).trans (if_neg (not_not.mpr held))

theorem exec_release_offline (stopped : s.terminating = true) :
    exec (.release tag) s = .next (s.respond { status := .offline, opc := Opc.release, tag := tag }) :=
  if_pos stopped

theorem exec_release_notOpen (running : s.terminating = false) (released : ¬ hasBit s.line Bit.acquired) :
    exec (.release tag) s = .next (s.respond { status := .notOpen, opc := Opc.release, tag := tag }) :=
  (if_neg (not_terminating running)).trans (if_pos released)

theorem exec_release_released (running : s.terminating = false) (held : hasBit s.line Bit.acquired) :
    exec (.release tag) s = .next ((s.changeState 0#32 Mask.all).respond { opc := Opc.release, tag := tag }) :=
  (if_neg (not_terminating running)).trans (if_neg (not_not.mpr held))

theorem exec_setstate_badArgument (bad : b &&& (Bit.acquired ||| Bit.active ||| ~~~Mask.settable) ≠ 0#32) :
    exec (.setstate tag a b) s = .next (s.respond { status := .badArgument, opc := Opc.setstate, tag := tag }) :=
  if_pos bad

theorem exec_setstate_notOpen (legal : b &&& (Bit.acquired ||| Bit.active ||| ~~~Mask.settable) = 0#32)
    (released : ¬ hasBit s.line Bit.acquired) :
    exec (.setstate tag a b) s = .next (s.respond { status := .notOpen, opc := Opc.setstate, tag := tag }) :=
  (if_neg (not_not.mpr legal)).trans (if_pos released)

theorem exec_setstate_written (legal : b &&& (Bit.acquired ||| Bit.active ||| ~~~Mask.settable) = 0#32)
    (held : hasBit s.line Bit.acquired) :
    exec (.setstate tag a b) s =
      .next ((s.changeState a (s.writableMask b)).respond { opc := Opc.setstate, tag := tag }) :=
  (if_neg (not_not.mpr legal)).trans (if_neg (not_not.mpr held))

end Endings

/-! ### The statements about each operation -/

/-- Settles O25: on a free line the acquisition writes the word that the emptied buffers give; on an owned one the caller is
refused or parked. -/
theorem acquireRule : Obligations.AcquireRule := by
  rintro blocking tag a b s _ rfl
  refine ⟨?_, exec_acquire_offline, fun running released legal => ?_, ?_, ?_, ?_⟩
  · cases blocking <;> exact decode_plainRow rfl (by decide)
  · rw [exec_acquire_free running released, State.acquisition, State.rebuild_word legal]
    rfl
  · rintro running held rfl
    exact exec_acquire_contended running held
  · rintro running held rfl noSlot
    exact (exec_acquire_blocking running held).trans (if_pos noSlot)
  · rintro running held rfl inRange free
    rw [exec_acquire_blocking running held, if_neg (not_not.mpr ⟨inRange, free⟩), State.park, Wait.interest,
      interestOf_explicit]
    rfl

/-- Settles O26: an owned line has at least the bit `ACQUIRED` to clear, so that the word changes. -/
theorem releaseRule : Obligations.ReleaseRule := by
  intro tag a b s
  refine ⟨decode_plainRow rfl (by decide), exec_release_offline, exec_release_notOpen, fun running held => ?_⟩
  rw [exec_release_released running held, State.changeState_clear (ne_zero_of_hasBit held)]
  rfl

/-- Settles O27: neither operation tests anything before it folds. -/
theorem lineResetAndGetStateRules : Obligations.LineResetAndGetStateRules := fun _ _ _ _ =>
  ⟨⟨decode_plainRow rfl (by decide), rfl⟩, ⟨decode_plainRow rfl (by decide), rfl⟩⟩

/-- Settles O28: the mask is refused, the line free, or the signals written. -/
theorem setStateRule : Obligations.SetStateRule := fun _ _ _ _ =>
  ⟨decode_plainRow rfl (by decide), exec_setstate_badArgument, exec_setstate_notOpen, exec_setstate_written⟩

/-- Settles O33: neither operation tests anything before it answers. -/
theorem snapshotAndEnqTxRules : Obligations.SnapshotAndEnqTxRules := by
  intro tag a b bytes s
  refine ⟨⟨decode_plainRow rfl (by decide), rfl⟩, fun fits => decode_row rfl ?_, rfl⟩
  rw [if_pos (.inr (.inr rfl)), BitVec.toNat_ofNat, Nat.mod_eq_of_lt fits]

end Sys2Proof.Machine
end

section
/-! PROOFS. The rules of the parked waits (41_linestate.md R162 to R170, R174): the test of a wait, how one is parked,
re-tested and ended, and that no step loses a wake-up. -/

namespace Sys2Proof.Machine

/-! ### The statement about every step -/

/-- Settles O56: the four invariants of the waits hold together, and every update of a step keeps them. -/
theorem stepKeepsNoLostWakeup : Obligations.StepKeepsNoLostWakeup := by
  intro s t slots waits watchMask noLostWakeup h
  have kept := step_waitInv ⟨slots, waits, watchMask, noLostWakeup⟩ h
  exact ⟨kept.waits, kept.noLostWakeup⟩

/-! ### The test of a wait (R162) -/

section Test

variable {line target mask : Word} {auto : Bool}

theorem watchTest_ioError (implicit : auto = true) (inactive : ¬ hasBit line Bit.active) :
    watchTest line target mask auto = .ioError :=
  if_pos ⟨implicit, inactive⟩

theorem watchTest_satisfied (live : ¬ (auto = true ∧ ¬ hasBit line Bit.active))
    (equal : (line ^^^ target) &&& mask = 0#32) : watchTest line target mask auto = .satisfied :=
  (if_neg live).trans (if_pos equal)

theorem watchTest_unsatisfied (live : ¬ (auto = true ∧ ¬ hasBit line Bit.active))
    (differs : (line ^^^ target) &&& mask ≠ 0#32) : watchTest line target mask auto = .unsatisfied :=
  (if_neg live).trans (if_neg differs)

end Test

/-! ### How each operation ends -/

section Endings

variable {tag : Tag} {a b : Word} {s : State} {w : Nat} {x : Wait}

theorem exec_watchstate_offline (stopped : s.terminating = true) :
    exec (.watchstate tag a b) s = .next (s.respond { status := .offline, opc := Opc.watchstate, tag := tag }) :=
  if_pos stopped

theorem exec_watchstate_notOpen (running : s.terminating = false) (released : ¬ hasBit s.line Bit.acquired) :
    exec (.watchstate tag a b) s = .next (s.respond { status := .notOpen, opc := Opc.watchstate, tag := tag }) :=
  (if_neg (not_terminating running)).trans (if_pos released)

theorem exec_watchstate_ioError (running : s.terminating = false) (held : hasBit s.line Bit.acquired)
    (test : watchTest s.line a b (autoOf b) = .ioError) :
    exec (.watchstate tag a b) s =
      .next (s.respond { status := .ioError, opc := Opc.watchstate, tag := tag, d0 := s.visibleLine }) := by
  rw [exec, runWatchstate, if_neg (not_terminating running), if_neg (not_not.mpr held), test]

theorem exec_watchstate_satisfied (running : s.terminating = false) (held : hasBit s.line Bit.acquired)
    (test : watchTest s.line a b (autoOf b) = .satisfied) :
    exec (.watchstate tag a b) s = .next (s.respond { opc := Opc.watchstate, tag := tag, d0 := s.visibleLine }) := by
  rw [exec, runWatchstate, if_neg (not_terminating running), if_neg (not_not.mpr held), test]

/-- A condition that does not hold yet comes down to the slot. -/
theorem exec_watchstate_unsatisfied (running : s.terminating = false) (held : hasBit s.line Bit.acquired)
    (test : watchTest s.line a b (autoOf b) = .unsatisfied) :
    exec (.watchstate tag a b) s =
      if ¬ s.canPark tag then .next (s.respond { status := .badArgument, opc := Opc.watchstate, tag := tag })
      else .next (s.park tag
        { kind := .watch, target := a, mask := b, auto := autoOf b, awake := false, port := s.issuer }) := by
  rw [exec, runWatchstate, if_neg (not_terminating running), if_neg (not_not.mpr held), test]
  rfl

/-- A slot that is free or asleep has no step (R66 (3)). -/
theorem takeTurn_retest_idle (idle : ∀ x, s.slot w = some x → x.awake = false) : takeTurn (.retest w) s = .next s := by
  rw [takeTurn, retestStep]
  cases slot : s.slot w with
  | none => rfl
  | some x => exact congrArg Host.Outcome.next (if_neg (Bool.eq_false_iff.mp (idle x slot)))

theorem takeTurn_retest_woken (slot : s.slot w = some x) (awake : x.awake = true) :
    takeTurn (.retest w) s = .next (s.retest w x) := by
  rw [takeTurn, retestStep, slot]
  exact congrArg Host.Outcome.next (if_pos awake)

theorem State.retest_ioError (kind : x.kind = .watch) (test : watchTest s.line x.target x.mask x.auto = .ioError) :
    s.retest w x = s.complete w x .ioError s.visibleLine := by
  rw [State.retest, kind]
  simp only [State.retestWatch, test]

theorem State.retest_satisfied (kind : x.kind = .watch)
    (test : watchTest s.line x.target x.mask x.auto = .satisfied) :
    s.retest w x = s.complete w x .ok s.visibleLine := by
  rw [State.retest, kind]
  simp only [State.retestWatch, test]

/-- A woken ACQUIRE that finds the line free acquires it (R166). -/
theorem State.retest_acquired (kind : x.kind = .acq) (released : ¬ hasBit s.line Bit.acquired) :
    s.retest w x = (s.setSlot w none).acquisition.send x.port
      { opc := Opc.acquire, tag := BitVec.ofNat 8 w, d0 := (s.setSlot w none).acquisition.visibleLine } := by
  rw [State.retest, kind]
  exact if_neg released

/-- A woken wait of either kind whose condition does not hold goes back to sleep (R166). -/
theorem State.retest_unmet (unmet : x.unmet s.line) : s.retest w x = s.repark w x := by
  cases kind : x.kind with
  | watch =>
    have test := (Wait.unmet_watch_iff kind).mp unmet
    rw [State.retest, kind]
    simp only [State.retestWatch, test]
  | acq =>
    rw [State.retest, kind]
    exact if_pos ((Wait.unmet_acq_iff kind).mp unmet)

/-- The OPC of the command that parked, with the codes written out (R94, R96). -/
theorem WaitKind.opc_eq (k : WaitKind) : k.opc = if k = .watch then 0x15#8 else 0x10#8 := by cases k <;> rfl

theorem exec_cancelwait_badArgument (noWait : s.params.nwatch ≤ tag.toNat ∨ s.slot tag.toNat = none) :
    exec (.cancelwait tag) s = .next (s.respond { status := .badArgument, opc := Opc.cancelwait, tag := tag }) := by
  rw [exec, runCancelwait]
  by_cases inRange : tag.toNat < s.params.nwatch
  · rw [if_neg (not_not.mpr inRange), noWait.resolve_left (Nat.not_le.mpr inRange)]
    rfl
  · exact if_pos inRange

/-- A CANCELWAIT that finds a wait: the wait freed, everyone else woken, both commands answered (R168). -/
theorem exec_cancelwait_cancelled (inRange : tag.toNat < s.params.nwatch) (slot : s.slot tag.toNat = some x) :
    exec (.cancelwait tag) s =
      .next ((((s.setSlot tag.toNat none).wakeAll).send x.port
        { status := .cancelled, opc := x.kind.opc, tag := tag, d0 := 0#32 }).respond
          { opc := Opc.cancelwait, tag := tag }) := by
  rw [exec, runCancelwait, if_neg (not_not.mpr inRange), slot]
  simp only [State.complete_wakeAll, BitVec.ofNat_toNat, BitVec.setWidth_eq]

end Endings

/-! ### The answers that TERMINATE sends (R170) -/

theorem offlineAnswers_some (p : Port) (w : Nat) (x : Wait) (xs : List (Option Wait)) :
    offlineAnswers p w (some x :: xs) =
      (if x.port = p then [{ status := .offline, opc := x.kind.opc, tag := BitVec.ofNat 8 w }] else []) ++
        offlineAnswers p (w + 1) xs := by
  rw [offlineAnswers]
  split <;> rfl

theorem State.complete_out (s : State) (w : Nat) (x : Wait) (k : Status) (d0 : Word) (p : Port) :
    (s.complete w x k d0).out p = s.out p ++
      if x.port = p then [{ status := k, opc := x.kind.opc, tag := BitVec.ofNat 8 w, d0 := d0 }] else [] := by
  have freed : (s.setSlot w none).out p = s.out p := by cases p <;> rfl
  unfold State.complete
  split
  · next own => rw [own, State.send_out_self, freed]
  · next other => rw [State.send_out_ne _ _ _ _ (Ne.symm other), freed, List.append_nil]

/-- Completing a list of slots Offline sends on each port the answers of the waits parked for it. -/
theorem State.completeOffline_out (p : Port) (xs : List (Option Wait)) (s : State) (w : Nat) :
    (s.completeOffline w xs).out p = s.out p ++ offlineAnswers p w xs := by
  induction xs generalizing s w with
  | nil => exact (List.append_nil _).symm
  | cons o xs ih =>
    cases o with
    | none => exact ih s (w + 1)
    | some x =>
      rw [State.completeOffline, ih, State.complete_out, offlineAnswers_some, List.append_assoc]

theorem State.terminated_outH (s : State) : s.terminated.outH = s.outH ++ offlineAnswers .H 0 s.slots :=
  State.completeOffline_out .H s.slots { s with terminating := true } 0

theorem State.terminated_outW (s : State) : s.terminated.outW = s.outW ++ offlineAnswers .W 0 s.slots :=
  State.completeOffline_out .W s.slots { s with terminating := true } 0

/-! ### The statements about each operation -/

/-- Settles O29: the test decides whether the command is answered or comes down to its slot. -/
theorem watchStateRule : Obligations.WatchStateRule := by
  rintro tag a b s _ rfl
  refine ⟨decode_plainRow rfl (by decide), exec_watchstate_offline, exec_watchstate_notOpen, ?_, ?_, ?_, ?_⟩
  · exact fun running held implicit inactive =>
      exec_watchstate_ioError running held (watchTest_ioError implicit inactive)
  · exact fun running held live equal => exec_watchstate_satisfied running held (watchTest_satisfied live equal)
  · intro running held live differs noSlot
    rw [exec_watchstate_unsatisfied running held (watchTest_unsatisfied live differs), if_pos noSlot]
    rfl
  · intro running held live differs inRange free
    rw [exec_watchstate_unsatisfied running held (watchTest_unsatisfied live differs),
      if_neg (not_not.mpr ⟨inRange, free⟩), BitVec.or_assoc]
    rfl

/-- Settles O30: the same test decides whether a woken wait is completed or goes back to sleep. -/
theorem retestRule : Obligations.RetestRule := by
  intro s w
  refine ⟨takeTurn_retest_idle, fun x slot awake => ?_⟩
  rw [takeTurn_retest_woken slot awake]
  refine ⟨fun kind implicit inactive => ?_, fun kind live equal => ?_, fun kind live differs => ?_,
    fun kind released => ⟨_, rfl, ?_⟩, fun kind ok held => ?_⟩
  · rw [State.retest_ioError kind (watchTest_ioError implicit inactive), State.complete, kind]
    rfl
  · rw [State.retest_satisfied kind (watchTest_satisfied live equal), State.complete, kind]
    rfl
  · rw [State.retest_unmet ((Wait.unmet_watch_iff kind).mpr (watchTest_unsatisfied live differs))]
    rfl
  · rw [State.retest_acquired kind released]
    rfl
  · rw [State.retest_unmet ((Wait.unmet_acq_iff kind).mpr held), State.repark, ok.interest_acq kind]
    rfl

/-- Settles O31: there is no wait to cancel, or it is answered before everyone else is woken. -/
theorem cancelWaitRule : Obligations.CancelWaitRule := by
  intro tag a b s
  refine ⟨decode_plainRow rfl (by decide), exec_cancelwait_badArgument, fun x inRange slot => ?_⟩
  rw [exec_cancelwait_cancelled inRange slot, WaitKind.opc_eq]
  rfl

/-- Settles O32: the completions, in slot order, are the answers of the waits parked for each port. -/
theorem terminateRule : Obligations.TerminateRule := by
  intro tag a b s
  refine ⟨decode_plainRow rfl (by decide), _, _, .refl _, .refl _, ?_⟩
  rw [exec, runTerminate_eq, State.terminated_eq, State.terminated_outH, State.terminated_outW, List.map_const']
  rfl

end Sys2Proof.Machine
end

section
/-! PROOFS. The rules of the configuration events (42_events_execute.md R190 to R211): the three ways in which every
event ends, and what each kind applies. -/

namespace Sys2Proof.Machine

/-! ### Frames (R90 to R97) -/

/-- A frame that an instruction is encoded in decodes to it. -/
theorem decode_of_encode {i : Instr} {f : Frame} {bytes : List Byte} (encoded : encode i = ⟨f, bytes⟩)
    (fits : i.wellFormed) : decode f bytes = .ok i := by
  have inverse := decodeInvertsEncode i fits
  rwa [encoded] at inverse

/-- An EXEC frame decodes to the event that its selector names. -/
theorem decode_execRow {l : Byte} {tag : Tag} {a b : Word} {i : Instr} (row : decodeExec l tag a = .ok i) :
    decode (mkFrame 0x30#8 l tag a b) [] = .ok i :=
  decode_plainRow row (by decide)

/-! ### How every event ends (R190) -/

section Endings

variable {tag : Tag} {valid : Prop} [Decidable valid] {s t : State}

theorem configEvent_notOpen (released : ¬ hasBit s.line Bit.acquired) :
    (.next (s.configEvent tag valid t) : Host.Outcome State Fault Refusal) = .next (s.eventRefused tag .notOpen) :=
  congrArg _ (if_pos released)

theorem configEvent_refused (held : hasBit s.line Bit.acquired) (invalid : ¬ valid) :
    (.next (s.configEvent tag valid t) : Host.Outcome State Fault Refusal) = .next (s.eventRefused tag .badArgument) :=
  congrArg _ ((if_neg (not_not.mpr held)).trans (if_pos invalid))

theorem configEvent_done (held : hasBit s.line Bit.acquired) (legal : valid) :
    (.next (s.configEvent tag valid t) : Host.Outcome State Fault Refusal) = .next (t.eventDone tag) :=
  congrArg _ ((if_neg (not_not.mpr held)).trans (if_neg (not_not.mpr legal)))

/-- On an acquired line an event comes down to its range, however the range is put. -/
theorem configEvent_held {range : Prop} [Decidable range] (held : hasBit s.line Bit.acquired) (iff : valid ↔ range) :
    (.next (s.configEvent tag valid t) : Host.Outcome State Fault Refusal) =
      if range then .next (t.eventDone tag) else .next (s.eventRefused tag .badArgument) := by
  split
  · next legal => exact configEvent_done held (iff.mpr legal)
  · next illegal => exact configEvent_refused held (illegal ∘ iff.mp)

end Endings

/-! ### What EV_ACTIVE and EV_LINE_BREAK apply (R191, R205) -/

section Activation

variable {a : Word} {s : State}

theorem State.setActive_activating (on : a ≠ 0#32) (inactive : ¬ hasBit s.line Bit.active) :
    s.setActive (flagOf a) = s.linkDefaults.changeState Bit.active Bit.active :=
  (if_pos (decide_eq_true on)).trans (if_neg inactive)

theorem State.setActive_already (on : a ≠ 0#32) (active : hasBit s.line Bit.active) : s.setActive (flagOf a) = s :=
  (if_pos (decide_eq_true on)).trans (if_pos active)

theorem State.setActive_deactivating : s.setActive (flagOf 0#32) = s.changeState 0#32 Bit.active := rfl

end Activation

/-- The bit EV_LINE_BREAK writes, by its operand (R205). -/
theorem lineBreakBits_eq (a : Word) : (if flagOf a then Bit.brk else 0#32) = if a ≠ 0#32 then Bit.brk else 0#32 := by
  simp only [flagOf, decide_eq_true_eq]

/-! ### The table of special characters (R41, R199, R200) -/

theorem LinkBank.markSpecial_entry (k : LinkBank) (c : Byte) {i : Nat} (hi : i < 256) :
    (k.markSpecial c).specialChars.getLsbD i = if i = c.toNat then true else k.specialChars.getLsbD i := by
  rw [LinkBank.markSpecial, ← BitVec.twoPow_eq, BitVec.getLsbD_or, BitVec.getLsbD_twoPow]
  split
  · next here => simp [← here, hi]
  · next other => simp [Ne.symm other]

theorem LinkBank.markValid_entry (k : LinkBank) (c : Byte) {i : Nat} (hi : i < 256) :
    (k.markValid c).specialChars.getLsbD i = if i = c.toNat then false else k.specialChars.getLsbD i := by
  rw [LinkBank.markValid, ← BitVec.twoPow_eq, BitVec.getLsbD_and, BitVec.getLsbD_not, BitVec.getLsbD_twoPow]
  split
  · next here => simp [← here, hi]
  · next other => simp [Ne.symm other, hi]

/-! ### The statements about each event -/

/-- Settles O6: each of the nine frames is the encoding of the command it stands for. -/
theorem specExampleFramesDecode : Obligations.SpecExampleFramesDecode :=
  ⟨decode_of_encode rfl trivial, decode_of_encode rfl trivial, decode_of_encode rfl trivial,
    decode_of_encode rfl trivial, decode_of_encode rfl trivial, decode_of_encode rfl (by decide),
    decode_of_encode rfl trivial, decode_of_encode rfl trivial, decode_of_encode rfl trivial⟩

/-- Settles O37: whatever an event would apply, the line is tested first. -/
theorem eventsNeedAcquisition : Obligations.EventsNeedAcquisition := by
  intro i s op released
  obtain ⟨_, _, _, _, _, event, -⟩ := exec_event s op
  exact event.trans (configEvent_notOpen released)

/-- Settles O38: the operand and `ACTIVE` decide which of three states the event leaves. -/
theorem activationRule : Obligations.ActivationRule := by
  intro tag a b s
  refine ⟨decode_execRow rfl, fun held on inactive => ?_, fun held on active => ?_, fun held off => ?_⟩
  · rw [exec, runExecEvActive, configEvent_done held trivial, State.setActive_activating on inactive]
    rfl
  · rw [exec, runExecEvActive, configEvent_done held trivial, State.setActive_already on active]
  · rw [exec, runExecEvActive, configEvent_done held trivial, off, State.setActive_deactivating]
    rfl

/-- Settles O39: each of the five kinds is its range and its register. -/
theorem framingEventRules : Obligations.FramingEventRules := by
  intro tag a b s
  have parity : a = 0#32 ∨ a = 6#32 ↔ a.toNat = 0 ∨ a.toNat = 6 :=
    or_congr BitVec.toNat_inj.symm BitVec.toNat_inj.symm
  refine ⟨⟨decode_execRow rfl, decode_execRow rfl, decode_execRow rfl, decode_execRow rfl, decode_execRow rfl⟩,
    fun held => ?_⟩
  exact ⟨configEvent_held held Iff.rfl, configEvent_held held Iff.rfl, configEvent_held held Iff.rfl,
    configEvent_held held Iff.rfl, configEvent_held held parity⟩

/-- Settles O40: an operand that is no byte is refused by all four kinds; one that is writes its byte or its entry. -/
theorem byteEventRules : Obligations.ByteEventRules := by
  intro tag a b s
  refine ⟨⟨decode_execRow rfl, decode_execRow rfl, decode_execRow rfl, decode_execRow rfl⟩, fun held wide => ?_,
    fun held byte => ?_⟩
  · have noByte : ¬ isByte a := BitVec.not_le.mpr wide
    exact ⟨configEvent_refused held noByte, configEvent_refused held noByte, configEvent_refused held noByte,
      configEvent_refused held noByte⟩
  · rw [← byteOf_toNat (Nat.lt_succ_of_le byte)]
    exact ⟨configEvent_done held byte, configEvent_done held byte,
      ⟨_, configEvent_done held byte, fun _ => s.bank.markSpecial_entry (byteOf a)⟩,
      ⟨_, configEvent_done held byte, fun _ => s.bank.markValid_entry (byteOf a)⟩⟩

/-- Settles O41: flow control alone has operands to refuse. -/
theorem latencyFlowAndBreakEventRules : Obligations.LatencyFlowAndBreakEventRules := by
  intro tag a b s
  refine ⟨⟨decode_execRow rfl, decode_execRow rfl, decode_execRow rfl, decode_execRow rfl, decode_execRow rfl⟩,
    fun held => ⟨configEvent_done held trivial, configEvent_done held trivial, configEvent_done held trivial,
      configEvent_held held Iff.rfl, ?_⟩⟩
  rw [exec, runExecEvLineBreak, configEvent_done held trivial, lineBreakBits_eq]
  rfl

/-- Settles O42: the six kinds share one meaning, an event that accepts everything and applies nothing. -/
theorem queueEventsAreNoOps : Obligations.QueueEventsAreNoOps := by
  intro tag a b s
  refine ⟨⟨decode_execRow rfl, decode_execRow rfl, decode_execRow rfl, decode_execRow rfl, decode_execRow rfl,
    decode_execRow rfl⟩, fun held => ?_⟩
  have accepted : (.next (s.configEvent tag True s) : Host.Outcome State Fault Refusal) = .next (s.eventDone tag) :=
    configEvent_done held trivial
  exact ⟨accepted, accepted, accepted, accepted, accepted, accepted⟩

end Sys2Proof.Machine
end

section
/-! PROOFS. The read-back of the configuration events (43_events_request.md R230 to R253): what each REQ answers, and
what can change the registers it answers from. -/

namespace Sys2Proof.Machine

/-! ### Frames and answers (R230) -/

/-- A REQ frame decodes to the request that its selector names, whatever its operands. -/
theorem decode_reqRow {l : Byte} {tag : Tag} {a b : Word} {i : Instr} (row : decodeReq l tag = .ok i) :
    decode (mkFrame 0x31#8 l tag a b) [] = .ok i :=
  decode_plainRow row (by decide)

theorem boolWord_decide (p : Prop) [Decidable p] : boolWord (decide p) = if p then 1#32 else 0#32 := by
  simp only [boolWord, decide_eq_true_eq]

section Answers

variable {tag : Tag} {s : State}

theorem exec_reqEvActive : exec (.reqEvActive tag) s = .next (s.respond
    { status := .ok, opc := 0x31#8, tag := tag, d0 := if hasBit s.line Bit.active then 1#32 else 0#32 }) := by
  rw [exec, runReqEvActive, boolWord_decide]
  rfl

theorem exec_reqEvLineBreak : exec (.reqEvLineBreak tag) s = .next (s.respond
    { status := .ok, opc := 0x31#8, tag := tag, d0 := if hasBit s.line Bit.brk then 1#32 else 0#32 }) := by
  rw [exec, runReqEvLineBreak, boolWord_decide]
  rfl

end Answers

/-- Settles O43: a request is its frame and one answer; those of bits of `State` test the bit. -/
theorem lineAndFramingReadBackRules : Obligations.LineAndFramingReadBackRules := fun _ _ _ _ =>
  ⟨⟨decode_reqRow rfl, exec_reqEvActive⟩, ⟨decode_reqRow rfl, rfl⟩, ⟨decode_reqRow rfl, rfl⟩, ⟨decode_reqRow rfl, rfl⟩,
    ⟨decode_reqRow rfl, rfl⟩, ⟨decode_reqRow rfl, rfl⟩, ⟨decode_reqRow rfl, rfl⟩, ⟨decode_reqRow rfl, rfl⟩,
    ⟨decode_reqRow rfl, rfl⟩, ⟨decode_reqRow rfl, rfl⟩⟩

/-- Settles O44: in the same way, the queue figures being those of the watermark registers. -/
theorem latencyAndQueueReadBackRules : Obligations.LatencyAndQueueReadBackRules := fun _ _ _ _ =>
  ⟨⟨decode_reqRow rfl, rfl⟩, ⟨decode_reqRow rfl, rfl⟩, ⟨decode_reqRow rfl, rfl⟩, ⟨decode_reqRow rfl, rfl⟩,
    ⟨decode_reqRow rfl, exec_reqEvLineBreak⟩, ⟨decode_reqRow rfl, rfl⟩, ⟨decode_reqRow rfl, rfl⟩,
    ⟨decode_reqRow rfl, rfl⟩, ⟨decode_reqRow rfl, rfl⟩, ⟨decode_reqRow rfl, rfl⟩, ⟨decode_reqRow rfl, rfl⟩⟩

/-! ### The registers that can be read back (R232 to R238, R241 to R244) -/

/-- The registers of the bank that EXEC stores and REQ reads, by their kind, as REQ gives them. -/
def LinkBank.readable (b : LinkBank) : List (Byte × Word) :=
  [(Kind.dataRate, b.baudRate), (Kind.dataSize, wordOfByte b.charLength), (Kind.stopBits, wordOfByte b.stopBits),
    (Kind.txParity, wordOfByte b.txParity), (Kind.rxParity, wordOfByte b.rxParity),
    (Kind.xonByte, wordOfByte b.xonByte), (Kind.xoffByte, wordOfByte b.xoffByte),
    (Kind.minLatency, boolWord b.minLatency), (Kind.dataLatency, b.dataLatency), (Kind.charLatency, b.charLatency),
    (Kind.flowControl, b.flowControlMode)]

/-- The register of kind `k` holding `v`, any other as it was. -/
def storeEntry (k : Byte) (v : Word) (e : Byte × Word) : Byte × Word := if e.1 = k then (k, v) else e

variable {i j : Instr} {s t u : State} {k : Byte} {v : Word}

theorem State.readBackOf_of_row (row : decodeReq k 0x00#8 = .ok i)
    (answer : exec i s = .next (s.readBack 0x00#8 v)) : s.readBackOf k = some v := by
  simp only [State.readBackOf, decode_reqRow row, answer, State.readBack, State.lastAnswer_respond, Option.map_some]

/-- REQ of a kind gives what the register of that kind holds. -/
theorem State.readBackOf_of_mem (h : (k, v) ∈ s.bank.readable) : s.readBackOf k = some v := by
  simp only [LinkBank.readable, List.mem_cons, List.not_mem_nil, or_false, Prod.mk.injEq] at h
  rcases h with ⟨rfl, rfl⟩ | ⟨rfl, rfl⟩ | ⟨rfl, rfl⟩ | ⟨rfl, rfl⟩ | ⟨rfl, rfl⟩ | ⟨rfl, rfl⟩ | ⟨rfl, rfl⟩ | ⟨rfl, rfl⟩ |
    ⟨rfl, rfl⟩ | ⟨rfl, rfl⟩ | ⟨rfl, rfl⟩
  all_goals exact State.readBackOf_of_row rfl rfl

/-- The kinds that EXEC stores and REQ reads. -/
def readableKinds : List Byte :=
  [Kind.dataRate, Kind.dataSize, Kind.stopBits, Kind.txParity, Kind.rxParity, Kind.xonByte, Kind.xoffByte,
    Kind.minLatency, Kind.dataLatency, Kind.charLatency, Kind.flowControl]

theorem readsBackOf_mem (h : readsBackOf j = some k) : k ∈ readableKinds := by
  cases j with
  | reqEvDataRate | reqEvDataSize | reqEvStopBits | reqEvTxParity | reqEvRxParity | reqEvXonByte | reqEvXoffByte
  | reqEvMinLatency | reqEvDataLatency | reqEvCharLatency | reqEvFlowControl =>
    cases h
    decide
  | _ => cases h

theorem storesOf_mem (h : storesOf i = some (k, v)) : k ∈ readableKinds := by
  cases i with
  | execEvDataRate | execEvDataSize | execEvStopBits | execEvTxParity | execEvRxParity | execEvXonByte | execEvXoffByte
  | execEvMinLatency | execEvDataLatency | execEvCharLatency | execEvFlowControl =>
    cases h
    decide
  | _ => cases h

/-- Every such kind has its register. -/
theorem LinkBank.exists_readable (b : LinkBank) (h : k ∈ readableKinds) : ∃ v, (k, v) ∈ b.readable := by
  have kinds : b.readable.map Prod.fst = readableKinds := rfl
  obtain ⟨⟨k, v⟩, hv, rfl⟩ := List.mem_map.mp (kinds ▸ h)
  exact ⟨v, hv⟩

theorem State.readBackOf_congr (h : k ∈ readableKinds) (same : t.bank.readable = s.bank.readable) :
    t.readBackOf k = s.readBackOf k := by
  obtain ⟨v, hv⟩ := s.bank.exists_readable h
  rw [State.readBackOf_of_mem hv, State.readBackOf_of_mem (same ▸ hv)]

/-- REQ of the kind just stored gives the value stored. -/
theorem State.readBackOf_stored (h : k ∈ readableKinds)
    (stored : t.bank.readable = s.bank.readable.map (storeEntry k v)) : t.readBackOf k = some v := by
  obtain ⟨w, hw⟩ := s.bank.exists_readable h
  refine State.readBackOf_of_mem ?_
  rw [stored]
  exact List.mem_map.mpr ⟨_, hw, if_pos rfl⟩

/-- A store in the register of another kind is not seen by REQ. -/
theorem State.readBackOf_stored_ne {k' : Byte} (h : k' ∈ readableKinds)
    (stored : t.bank.readable = s.bank.readable.map (storeEntry k v)) (other : k' ≠ k) :
    t.readBackOf k' = s.readBackOf k' := by
  obtain ⟨w, hw⟩ := s.bank.exists_readable h
  rw [State.readBackOf_of_mem hw]
  refine State.readBackOf_of_mem ?_
  rw [stored]
  exact List.mem_map.mpr ⟨_, hw, if_neg other⟩

/-! ### Events that store (R192 to R198, R201 to R204) -/

theorem wordOfByte_byteOf (a : Word) : wordOfByte (byteOf a) = a &&& 0xFF#32 := by
  refine BitVec.eq_of_toNat_eq ?_
  rw [wordOfByte, byteOf, BitVec.toNat_setWidth, BitVec.toNat_setWidth, BitVec.toNat_and]
  have low : a.toNat &&& (0xFF#32).toNat = a.toNat % 2 ^ 8 := Nat.and_two_pow_sub_one_eq_mod a.toNat 8
  omega

/-- An event that stores writes the register of its kind and no other. -/
theorem exec_stores (h : storesOf i = some (k, v)) (s : State) :
    ∃ (valid : Prop) (_ : Decidable valid) (b : LinkBank),
      exec i s = .next (s.configEvent i.tag valid (s.setBank b)) ∧
        b.readable = s.bank.readable.map (storeEntry k v) := by
  cases i with
  | execEvDataRate | execEvDataLatency | execEvCharLatency | execEvFlowControl =>
    cases h
    exact ⟨_, _, _, rfl, rfl⟩
  | execEvDataSize tag a | execEvStopBits tag a | execEvTxParity tag a | execEvRxParity tag a | execEvXonByte tag a
  | execEvXoffByte tag a =>
    cases h
    rw [← wordOfByte_byteOf]
    exact ⟨_, _, _, rfl, rfl⟩
  | execEvMinLatency tag a =>
    cases h
    rw [← boolWord_decide]
    exact ⟨_, _, _, rfl, rfl⟩
  | _ => cases h

/-- An event is refused and changes nothing, or it is applied. -/
theorem State.configEvent_cases (s u : State) (tag : Tag) (valid : Prop) [Decidable valid] :
    (∃ e, e ≠ .ok ∧ s.configEvent tag valid u = s.eventRefused tag e) ∨
    (hasBit s.line Bit.acquired ∧ s.configEvent tag valid u = u.eventDone tag) := by
  unfold State.configEvent
  split
  · exact .inl ⟨.notOpen, by decide, rfl⟩
  · next held =>
    split
    · exact .inl ⟨.badArgument, by decide, rfl⟩
    · exact .inr ⟨not_not.mp held, rfl⟩

/-- After an event that stores: an error, and the bank as it was; or OK, and the register of its kind written. -/
theorem exec_stores_cases (h : storesOf i = some (k, v)) (ht : exec i s = .next t) :
    (∃ r, r.status ≠ .ok ∧ t.lastAnswer = some r ∧ t.bank = s.bank) ∨
    (∃ r, r.status = .ok ∧ t.lastAnswer = some r ∧ t.bank.readable = s.bank.readable.map (storeEntry k v)) := by
  obtain ⟨valid, _, b, event, stored⟩ := exec_stores h s
  obtain rfl := Host.Outcome.next.inj (event.symm.trans ht)
  rcases s.configEvent_cases (s.setBank b) i.tag valid with ⟨e, err, refused⟩ | ⟨-, done⟩
  · rw [refused]
    exact .inl ⟨_, err, State.lastAnswer_respond _ _, State.respond_bank _ _⟩
  · rw [done]
    refine .inr ⟨_, rfl, State.lastAnswer_respond _ _, ?_⟩
    rw [State.respond_bank]
    exact stored

/-! ### What can change the registers (R36, R253) -/

/-- What carrying out an instruction can make of the registers that REQ reads. -/
inductive BankChange (i : Instr) (s t : State) : Prop
  | kept (same : t.bank.readable = s.bank.readable)
  /-- an event that stores, in the register of its kind -/
  | stored (k : Byte) (v : Word) (stores : storesOf i = some (k, v))
      (stored : t.bank.readable = s.bank.readable.map (storeEntry k v))
  /-- the activation of an inactive line (R191) -/
  | activated (tag : Tag) (a : Word) (event : i = .execEvActive tag a) (on : a ≠ 0#32)
      (held : hasBit s.line Bit.acquired) (inactive : ¬ hasBit s.line Bit.active)
  /-- a successful ACQUIRE (R152) -/
  | acquired (blocking : Bool) (tag : Tag) (op : i = .acquire blocking tag) (released : ¬ hasBit s.line Bit.acquired)

theorem BankChange.of_bank_eq (same : t.bank = s.bank) : BankChange i s t := .kept (congrArg LinkBank.readable same)

theorem BankChange.of_respond {r : Response} (h : (.next (s.respond r) : Host.Outcome State Fault Refusal) = .next t) :
    BankChange i s t := by
  cases h
  exact .of_bank_eq (State.respond_bank s r)

/-- An event whose application leaves the registers alone does so however it ends. -/
theorem BankChange.of_configEvent {tag : Tag} {valid : Prop} [Decidable valid]
    (h : (.next (s.configEvent tag valid u) : Host.Outcome State Fault Refusal) = .next t)
    (same : u.bank.readable = s.bank.readable) : BankChange i s t := by
  cases h
  rcases s.configEvent_cases u tag valid with ⟨e, -, refused⟩ | ⟨-, done⟩
  · rw [refused]
    exact .of_bank_eq (State.respond_bank _ _)
  · rw [done]
    exact .kept ((congrArg LinkBank.readable (State.respond_bank _ _)).trans same)

theorem exec_stores_bankChange (stores : storesOf i = some (k, v)) (h : exec i s = .next t) : BankChange i s t := by
  rcases exec_stores_cases stores h with ⟨-, -, -, same⟩ | ⟨-, -, -, stored⟩
  · exact .of_bank_eq same
  · exact .stored k v stores stored

/-- EV_ACTIVE writes the registers only where it activates an inactive line. -/
theorem exec_evActive_bankChange {tag : Tag} {a : Word} (h : exec (.execEvActive tag a) s = .next t) :
    BankChange (.execEvActive tag a) s t := by
  by_cases on : a = 0#32
  · subst on
    exact .of_configEvent h (congrArg LinkBank.readable (s.changeState_bank _ _))
  · by_cases active : hasBit s.line Bit.active
    · exact .of_configEvent h (congrArg (·.bank.readable) (State.setActive_already on active))
    · cases h
      rcases s.configEvent_cases (s.setActive (flagOf a)) tag True with ⟨e, -, refused⟩ | ⟨held, -⟩
      · rw [refused]
        exact .of_bank_eq (State.respond_bank _ _)
      · exact .activated tag a rfl on held active

theorem exec_event_bankChange (op : i.opc = Opc.exec) (h : exec i s = .next t) : BankChange i s t := by
  cases i with
  | execEvDataRate | execEvDataSize | execEvStopBits | execEvTxParity | execEvRxParity | execEvXonByte | execEvXoffByte
  | execEvMinLatency | execEvDataLatency | execEvCharLatency | execEvFlowControl => exact exec_stores_bankChange rfl h
  | execEvActive => exact exec_evActive_bankChange h
  | execEvLineBreak => exact .of_configEvent h (congrArg LinkBank.readable (s.changeState_bank _ _))
  | execEvSpecialByte | execEvValidDataByte | execEvRxqSize | execEvTxqSize | execEvRxqHighWater | execEvRxqLowWater
  | execEvTxqHighWater | execEvTxqLowWater => exact .of_configEvent h rfl
  | _ => exact absurd (beq_iff_eq.mpr op) Bool.false_ne_true

/-- On an owned line an ACQUIRE is refused or parked. -/
theorem runAcquire_bankChange {blocking : Bool} {tag : Tag} (h : runAcquire blocking tag s = .next t) :
    BankChange (.acquire blocking tag) s t := by
  unfold runAcquire at h
  split at h
  · exact .of_respond h
  · split at h
    · next released => exact .acquired blocking tag rfl released
    · split at h
      · exact .of_respond h
      · split at h
        · exact .of_respond h
        · cases h
          exact .of_bank_eq (State.park_bank s tag _)

theorem exec_bankChange (h : exec i s = .next t) : BankChange i s t := by
  rcases (exec_carried h).bank with same | op | ⟨op, -⟩
  · exact .of_bank_eq same
  · cases i with
    | acquire => exact runAcquire_bankChange h
    | _ => exact absurd (beq_iff_eq.mpr op) Bool.false_ne_true
  · exact exec_event_bankChange op h

/-! ### Every turn (R66, R253) -/

theorem runCommand_bankChange {c : Command} (h : runCommand c s = .next t) :
    t.bank = s.bank ∨ ∃ i, decode c.frame c.payload = .ok i ∧ BankChange i s t := by
  unfold runCommand at h
  split at h
  · next i hi => exact .inr ⟨i, hi, exec_bankChange h⟩
  · cases h
  all_goals
    cases h
    exact .inl (State.respond_bank _ _)

/-- A change that a command makes as its port takes it, put in terms of the state before. -/
theorem BankChange.of_taking {p : Port} {cs : List Command} (h : BankChange i (s.taking p cs) t) : BankChange i s t := by
  cases h with
  | kept same => exact .kept (same.trans (congrArg LinkBank.readable (s.taking_bank p cs)))
  | stored k v stores stored => exact .stored k v stores (by rw [stored, State.taking_bank])
  | activated tag a event on held inactive =>
    rw [State.taking_line] at held inactive
    exact .activated tag a event on held inactive
  | acquired blocking tag op released =>
    rw [State.taking_line] at released
    exact .acquired blocking tag op released

theorem acceptStep_bankChange {p : Port} (h : acceptStep p s = .next t) :
    t.bank = s.bank ∨ ∃ c rest i, s.pend p = c :: rest ∧ decode c.frame c.payload = .ok i ∧ BankChange i s t := by
  unfold acceptStep at h
  split at h
  · cases h
    exact .inl rfl
  · next c rest first =>
    split at h
    · rcases runCommand_bankChange h with same | ⟨i, hi, change⟩
      · exact .inl (same.trans (s.taking_bank p rest))
      · exact .inr ⟨c, rest, i, first, hi, change.of_taking⟩
    · cases h
      exact .inl rfl

theorem State.retest_bank (s : State) (w : Nat) (x : Wait) :
    (s.retest w x).bank = s.bank ∨ x.kind = .acq ∧ ¬ hasBit s.line Bit.acquired := by
  unfold State.retest
  split
  · unfold State.retestWatch
    split
    all_goals exact .inl (by simp)
  · next kind =>
    unfold State.retestAcquire
    split
    · exact .inl rfl
    · next released => exact .inr ⟨kind, released⟩

theorem retestStep_bank (s : State) (w : Nat) :
    (retestStep w s).bank = s.bank ∨ ∃ x, s.slot w = some x ∧ x.kind = .acq ∧ ¬ hasBit s.line Bit.acquired := by
  unfold retestStep
  split
  · next x slot =>
    split
    · exact (s.retest_bank w x).imp_right fun acquires => ⟨x, slot, acquires⟩
    · exact .inl rfl
  · exact .inl rfl

theorem copyStep_bank {p : Port} {job : XferJob} (h : copyStep p job s = .next t) : t.bank = s.bank := by
  unfold copyStep at h
  split at h
  all_goals
    split at h
    · cases h
      exact State.setXfer_bank _ p _
    · cases h

theorem transferStep_bank {p : Port} (h : transferStep p s = .next t) : t.bank = s.bank := by
  unfold transferStep at h
  split at h
  · cases h
    rfl
  · exact copyStep_bank h
  · cases h
    simp [foldStep, State.fold]

/-- A turn that writes the bank is a reset, a re-test that acquires the line, or the acceptance of an instruction. -/
theorem takeTurn_bankChange {turn : Turn} (h : takeTurn turn s = .next t) :
    t.bank = s.bank ∨ turn = .reset ∨
    (∃ w x, turn = .retest w ∧ s.slot w = some x ∧ x.kind = .acq ∧ ¬ hasBit s.line Bit.acquired) ∨
    ∃ p c rest i, turn = .accept p ∧ s.pend p = c :: rest ∧ decode c.frame c.payload = .ok i ∧ BankChange i s t := by
  cases turn with
  | present p c =>
    cases h
    exact .inl (State.setPend_bank s p _)
  | accept p =>
    rcases acceptStep_bankChange h with same | ⟨c, rest, i, first, hi, change⟩
    · exact .inl same
    · exact .inr (.inr (.inr ⟨p, c, rest, i, rfl, first, hi, change⟩))
  | retest w =>
    cases h
    rcases retestStep_bank s w with same | ⟨x, acquires⟩
    · exact .inl same
    · exact .inr (.inr (.inl ⟨w, x, rfl, acquires⟩))
  | transfer p => exact .inl (transferStep_bank h)
  | reset => exact .inr (.inl rfl)

/-- Settles O45: REQ reads the registers of the bank, which an event stores one of and few other turns write. -/
theorem readBackReturnsWhatWasStored : Obligations.ReadBackReturnsWhatWasStored := by
  refine ⟨fun i s t r k v stores h answer => ?_, fun turn s t j k reads h changed => ?_⟩
  · rcases exec_stores_cases stores h with ⟨q, error, sent, same⟩ | ⟨q, ok, sent, stored⟩
    all_goals obtain rfl := Option.some.inj (sent.symm.trans answer)
    · exact ⟨fun ok => absurd ok error, fun _ j k' reads =>
        State.readBackOf_congr (readsBackOf_mem reads) (congrArg LinkBank.readable same)⟩
    · exact ⟨fun _ => State.readBackOf_stored (storesOf_mem stores) stored, fun error => absurd ok error⟩
  · have readable := readsBackOf_mem reads
    rcases takeTurn_bankChange h with same | reset | acquires | ⟨p, c, rest, i, accepts, first, hi, change⟩
    · exact absurd (State.readBackOf_congr readable (congrArg LinkBank.readable same)) changed
    · exact .inl reset
    · exact .inr (.inl acquires)
    · refine .inr (.inr ⟨p, c, rest, i, accepts, first, hi, ?_⟩)
      cases change with
      | kept same => exact absurd (State.readBackOf_congr readable same) changed
      | stored k' v stores stored =>
        obtain rfl := not_imp_comm.mp (State.readBackOf_stored_ne readable stored) changed
        exact .inl ⟨v, stores⟩
      | activated tag a event on held inactive => exact .inr (.inl ⟨tag, a, event, on, held, inactive⟩)
      | acquired blocking tag op released => exact .inr (.inr ⟨blocking, tag, op, released⟩)

end Sys2Proof.Machine
end

section
/-! PROOFS. The WatermarkEvaluator (44_transfer_watermark.md R260 to R262): each queue bit as a condition on one buffer and
its thresholds, and the fold that writes them. -/

namespace Sys2Proof.Machine

/-! ### A bit of a word put together from parts -/

theorem hasBit_or {a b bit : Word} : hasBit (a ||| b) bit ↔ hasBit a bit ∨ hasBit b bit := by
  have clear : (a ||| b) &&& bit = 0#32 ↔ a &&& bit = 0#32 ∧ b &&& bit = 0#32 := by
    simp only [and_eq_zero_iff, BitVec.getLsbD_or, Bool.or_eq_true, or_imp, forall_and]
  exact (not_congr clear).trans not_and_or

theorem hasBit_bitIf {c : Prop} [Decidable c] {part bit : Word} : hasBit (bitIf c part) bit ↔ c ∧ hasBit part bit := by
  by_cases hc : c <;> simp [bitIf, hc]

theorem hasBit_fullEmptyBits {b : RingBuffer} {full empty bit : Word} :
    hasBit (fullEmptyBits b full empty) bit ↔
      (b.free = 0 ∧ hasBit full bit) ∨ (b.free ≠ 0 ∧ b.inQueue = 0 ∧ hasBit empty bit) := by
  by_cases hfull : b.free = 0
  · simp [fullEmptyBits, hfull]
  · by_cases hempty : b.inQueue = 0 <;> simp [fullEmptyBits, hfull, hempty]

/-- A bit of the queue bits of one direction, by which of the four parts holds it. -/
theorem hasBit_dirBits {b : RingBuffer} {wm : Watermarks} {full empty low high bit : Word} :
    hasBit (dirBits b wm full empty low high) bit ↔
      (((b.free = 0 ∧ hasBit full bit) ∨ (b.free ≠ 0 ∧ b.inQueue = 0 ∧ hasBit empty bit)) ∨
        (b.inQueue < wm.lowWater ∧ hasBit low bit)) ∨ (wm.highWater < b.inQueue ∧ hasBit high bit) := by
  rw [dirBits, hasBit_or, hasBit_or, hasBit_fullEmptyBits, hasBit_bitIf, hasBit_bitIf]

/-! ### The eight queue bits (R261) -/

/-- The queue bits of RX, the eight bits of both directions being eight different ones. -/
theorem State.hasBit_rxq (s : State) :
    (hasBit s.queueBits Bit.rxqFull ↔ s.rx.free = 0) ∧
    (hasBit s.queueBits Bit.rxqEmpty ↔ s.rx.free ≠ 0 ∧ s.rx.inQueue = 0) ∧
    (hasBit s.queueBits Bit.rxqLowWater ↔ s.rx.inQueue < s.wmRx.lowWater) ∧
    (hasBit s.queueBits Bit.rxqHighWater ↔ s.wmRx.highWater < s.rx.inQueue) := by
  simp only [State.queueBits, txBits, rxBits, hasBit_or, hasBit_dirBits]
  simp [Bit.txqFull, Bit.txqEmpty, Bit.txqLowWater, Bit.txqHighWater, Bit.rxqFull, Bit.rxqEmpty, Bit.rxqLowWater,
    Bit.rxqHighWater]

/-- The queue bits of TX. -/
theorem State.hasBit_txq (s : State) :
    (hasBit s.queueBits Bit.txqFull ↔ s.tx.free = 0) ∧
    (hasBit s.queueBits Bit.txqEmpty ↔ s.tx.free ≠ 0 ∧ s.tx.inQueue = 0) ∧
    (hasBit s.queueBits Bit.txqLowWater ↔ s.tx.inQueue < s.wmTx.lowWater) ∧
    (hasBit s.queueBits Bit.txqHighWater ↔ s.wmTx.highWater < s.tx.inQueue) := by
  simp only [State.queueBits, txBits, rxBits, hasBit_or, hasBit_dirBits]
  simp [Bit.txqFull, Bit.txqEmpty, Bit.txqLowWater, Bit.txqHighWater, Bit.rxqFull, Bit.rxqEmpty, Bit.rxqLowWater,
    Bit.rxqHighWater]

/-- A closed buffer has no room (R262 (b)). -/
theorem RingBuffer.closedOk.free {b : RingBuffer} (closed : b.closedOk) : b.free = 0 := by
  obtain ⟨-, size, -⟩ := closed
  rw [RingBuffer.free, size, Nat.zero_sub]

/-! ### The fold (R260, R271) -/

/-- A change to the word that stands there changes nothing and sends nothing (R150). -/
theorem State.changeState_of_eq {s : State} {n m : Word} (same : mergeBits s.line n m = s.line) :
    s.changeState n m = s := by
  rw [State.changeState_eq]
  simp [same, State.wakes]

/-- Writing the bits of a mask is seen under the mask. -/
theorem mergeBits_and_mask (old n m : Word) : mergeBits old n m &&& m = n &&& m := by
  apply BitVec.eq_of_getLsbD_eq
  intro i _
  rw [BitVec.getLsbD_and, BitVec.getLsbD_and, mergeBits_bit]
  cases m.getLsbD i <;> simp

/-- Writing the bits of a mask a second time changes nothing. -/
theorem mergeBits_mergeBits (old n m : Word) : mergeBits (mergeBits old n m) n m = mergeBits old n m := by
  apply BitVec.eq_of_getLsbD_eq
  intro i _
  rw [mergeBits_bit, mergeBits_bit]
  cases m.getLsbD i <;> simp

theorem State.fold_queueBits (s : State) : s.fold.queueBits = s.queueBits := s.changeState_queueBits _ _

theorem State.fold_line (s : State) : s.fold.line = mergeBits s.line s.queueBits Mask.queue := s.changeState_line _ _

/-- The evaluator computes queue bits, so that the queue mask takes nothing from them. -/
theorem State.queueBits_and_queue (s : State) : s.queueBits &&& Mask.queue = s.queueBits := by
  have inside := and_not_eq_zero_iff.mp s.queueBits_queue
  apply BitVec.eq_of_getLsbD_eq
  intro i _
  rw [BitVec.getLsbD_and]
  cases hbit : s.queueBits.getLsbD i
  · rfl
  · rw [inside i hbit]
    rfl

/-- After a fold the queue bits of `State` are those of the counters. -/
theorem State.fold_agrees (s : State) : s.fold.queueBitsAgree := by
  rw [State.queueBitsAgree, s.fold_line, s.fold_queueBits, mergeBits_and_mask, s.queueBits_and_queue]

theorem State.fold_fold (s : State) : s.fold.fold = s.fold :=
  State.changeState_of_eq (by rw [s.fold_queueBits, s.fold_line, mergeBits_mergeBits])

/-! ### The statements -/

/-- Settles O23: the evaluator's pseudocode is its definition, and a second fold writes the word that stands there. -/
theorem foldRule : Obligations.FoldRule :=
  ⟨fun _ => ⟨rfl, rfl⟩,
    fun _ _ rxCount rxSize txCount txSize wmRx wmTx => State.queueBits_congr rxSize rxCount txSize txCount wmRx wmTx,
    fun s => ⟨s.fold_fold, s.fold_agrees⟩⟩

/-- Settles O24: each bit is its condition, and the conditions are linear in the occupancy and the capacity. -/
theorem queueBitsByOccupancy : Obligations.QueueBitsByOccupancy := by
  refine ⟨fun s n h l pos size count high low wm => ?_, fun s => ⟨fun closed => ?_, fun closed => ?_⟩⟩
  · have room : s.rx.free = n - s.rx.inQueue := by rw [RingBuffer.free, size]
    obtain ⟨hfull, hempty, hlow, hhigh⟩ := s.hasBit_rxq
    rw [room] at hfull hempty
    rw [wm] at hlow hhigh
    simp only [Bit.rxqFull, Bit.rxqEmpty, Bit.rxqLowWater, Bit.rxqHighWater] at hfull hempty hlow hhigh
    rw [hfull, hempty, hlow, hhigh]
    refine ⟨?_, ?_, .rfl, .rfl, ?_, ?_, ?_, ?_⟩
    all_goals omega
  · have full := closed.free
    obtain ⟨-, -, -, -, count, -⟩ := closed
    obtain ⟨hfull, hempty, hlow, hhigh⟩ := s.hasBit_rxq
    rw [count] at hempty hlow hhigh
    exact ⟨hfull.mpr full, fun h => (hempty.mp h).1 full, fun h => Nat.not_lt_zero _ (hhigh.mp h), hlow⟩
  · have full := closed.free
    obtain ⟨-, -, -, -, count, -⟩ := closed
    obtain ⟨hfull, hempty, hlow, hhigh⟩ := s.hasBit_txq
    rw [count] at hempty hlow hhigh
    exact ⟨hfull.mpr full, fun h => (hempty.mp h).1 full, fun h => Nat.not_lt_zero _ (hhigh.mp h), hlow⟩

end Sys2Proof.Machine
end

section
/-! PROOFS. The transfers (44_transfer_watermark.md R263 to R270): the acceptance, the copy and the fold of ENQ_RX and DEQ_RX,
and the order of the bytes through the copy. -/

namespace Sys2Proof.Machine

/-! ### How each step ends -/

section Endings

variable {tag : Tag} {a b : Word} {s t : State} {p : Port} {job : XferJob} {c : RingBuffer} {n : Nat} {moved : List Byte}

theorem exec_deqRx_badArgument (order : a < b) :
    exec (.deqRx tag a b) s = .next (s.respond { status := .badArgument, opc := Opc.deqRx, tag := tag }) :=
  if_pos order

theorem exec_deqRx_notOpen (order : b ≤ a) (inactive : ¬ hasBit s.line Bit.active) :
    exec (.deqRx tag a b) s = .next (s.respond { status := .notOpen, opc := Opc.deqRx, tag := tag }) :=
  (if_neg (BitVec.not_lt.mpr order)).trans (if_pos inactive)

theorem exec_deqRx_loaded (order : b ≤ a) (active : hasBit s.line Bit.active) :
    exec (.deqRx tag a b) s =
      .next (s.setXfer s.issuer (.copy { op := .deqRx, tag := tag, a := a, b := b, payload := [] })) :=
  (if_neg (BitVec.not_lt.mpr order)).trans (if_neg (not_not.mpr active))

/-- The first step of a transfer in flight is its copy (R72). -/
theorem takeTurn_transfer_copy (flight : s.xfer p = .copy job) : takeTurn (.transfer p) s = copyStep p job s := by
  rw [takeTurn, transferStep, flight]

/-- The second is its fold. -/
theorem takeTurn_transfer_fold (flight : s.xfer p = .fold job n moved) :
    takeTurn (.transfer p) s = .next (foldStep p job n moved s) := by
  rw [takeTurn, transferStep, flight]

theorem copyStep_enqRx (op : job.op = .enqRx) (pushed : s.rx.pushBulk job.payload = some (n, c)) :
    copyStep p job s = .next (({ s with rx := c } : State).setXfer p (.fold job n [])) := by
  simp only [copyStep, op, pushed]

theorem copyStep_deqRx (op : job.op = .deqRx) (popped : s.rx.popBulk job.a.toNat = some (moved, c)) :
    copyStep p job s = .next (({ s with rx := c } : State).setXfer p (.fold job moved.length moved)) := by
  simp only [copyStep, op, popped]

end Endings

/-! ### The statements -/

/-- Settles O34: the acceptance writes the record alone, and the copy is the bulk push of RB_PUSHBULK. -/
theorem enqRxRule : Obligations.EnqRxRule := by
  refine ⟨fun tag b bytes fits => decode_row rfl ?_, fun _ _ _ => rfl, fun s p job flight op hs => ?_,
    fun s p job n moved flight op => ?_⟩
  · rw [if_pos (.inr (.inl rfl)), BitVec.toNat_ofNat, Nat.mod_eq_of_lt fits]
  · obtain ⟨c, pushed, -, -, frame, queued, kept⟩ := RingBuffer.pushBulk_spec hs.1 hs.2 job.payload
    refine ⟨c.mem, ?_, fun k => RingBuffer.pushBulk_stored hs.1 (by rw [frame]) queued, kept⟩
    rw [takeTurn_transfer_copy flight, copyStep_enqRx op pushed, frame]
    rfl
  · rw [takeTurn_transfer_fold flight, foldStep, op]
    rfl

/-- Settles O35: the bounds are refused, the line not active, or the record loaded; the copy is the bulk pop of RB_POPBULK and
looks at no register but those of the buffer. -/
theorem deqRxRule : Obligations.DeqRxRule := by
  refine ⟨fun tag a b s => ⟨decode_plainRow rfl (by decide), exec_deqRx_badArgument, exec_deqRx_notOpen,
    exec_deqRx_loaded⟩, fun s p job flight op hs => ?_, fun s p job n moved flight op => ?_⟩
  · obtain ⟨c, popped, -, frame, -⟩ := RingBuffer.popBulk_spec hs.1 job.a.toNat
    rw [takeTurn_transfer_copy flight, copyStep_deqRx op popped, List.length_take, RingBuffer.contents_length,
      RingBuffer.contents_take, frame]
    rfl
  · rw [takeTurn_transfer_fold flight, foldStep, op]
    rfl

/-- What the copy of a transfer leaves of the RX buffer meets its invariants where the new buffer does. -/
theorem State.ringOk_copied {s : State} {c : RingBuffer} (ok : c.ok (s.depth .rx)) (mem : c.mem.ok (s.depth .rx))
    (p : Port) (x : Xfer) : (({ s with rx := c } : State).setXfer p x).ringOk .rx := by
  cases p <;> exact ⟨ok, mem⟩

/-- Settles O36: a bulk push appends to the buffered bytes and a bulk pop splits them. -/
theorem transfersKeepByteOrder : Obligations.TransfersKeepByteOrder := by
  intro s t p job hs flight h
  rw [takeTurn_transfer_copy flight] at h
  cases op : job.op with
  | enqRx =>
    obtain ⟨c, pushed, ok, mem, -, queued, -⟩ := RingBuffer.pushBulk_spec hs.1 hs.2 job.payload
    cases (copyStep_enqRx op pushed).symm.trans h
    refine ⟨_, [], State.setXfer_xfer_self _ p _, State.ringOk_copied ok mem p _, fun _ => ⟨rfl, rfl, ?_⟩, nofun⟩
    rw [State.setXfer_rx, Nat.min_comm, ← List.take_eq_take_min]
    exact queued
  | deqRx =>
    obtain ⟨c, popped, ok, frame, queued⟩ := RingBuffer.popBulk_spec hs.1 job.a.toNat
    cases (copyStep_deqRx op popped).symm.trans h
    refine ⟨_, _, State.setXfer_xfer_self _ p _, State.ringOk_copied ok (by rw [frame]; exact hs.2) p _, nofun,
      fun _ => ⟨rfl, ?_, ?_⟩⟩
    · rw [List.length_take, RingBuffer.contents_length]
      rfl
    · rw [State.setXfer_rx, queued]
      exact (List.take_append_drop _ _).symm

end Sys2Proof.Machine
end

section
/-! PROOFS. Quiescent agreement (44_transfer_watermark.md R271): every instruction but RELEASE and the raw ring-buffer
operations leaves alone what R271 relates, or folds, or loads a transfer; and so does every turn but a reset, or it is a copy,
which a fold of its own follows. -/

namespace Sys2Proof.Machine

/-! ### States that R271 does not tell apart -/

/-- The queue bits of `State`, those of the counters and the transfers in flight are the same in `t` as in `s`. -/
structure State.SameQueues (s t : State) : Prop where
  line : t.line &&& Mask.queue = s.line &&& Mask.queue
  bits : t.queueBits = s.queueBits
  xferH : t.xferH = s.xferH
  xferW : t.xferW = s.xferW

section SameQueues

variable {s t u : State}

theorem State.SameQueues.refl (s : State) : s.SameQueues s := ⟨rfl, rfl, rfl, rfl⟩

theorem State.SameQueues.trans (h : s.SameQueues t) (h' : t.SameQueues u) : s.SameQueues u :=
  ⟨h'.line.trans h.line, h'.bits.trans h.bits, h'.xferH.trans h.xferH, h'.xferW.trans h.xferW⟩

/-- The registers that R271 looks at: those of `State`, the buffers, the thresholds and the transfers. -/
theorem State.SameQueues.of_registers
    (h : t.line = s.line ∧ t.rx = s.rx ∧ t.tx = s.tx ∧ t.wmRx = s.wmRx ∧ t.wmTx = s.wmTx ∧
      t.xferH = s.xferH ∧ t.xferW = s.xferW) : s.SameQueues t := by
  obtain ⟨line, rx, tx, wmRx, wmTx, xferH, xferW⟩ := h
  exact ⟨by rw [line], State.queueBits_congr (by rw [rx]) (by rw [rx]) (by rw [tx]) (by rw [tx]) wmRx wmTx, xferH, xferW⟩

theorem State.SameQueues.agrees (h : s.SameQueues t) (agrees : s.queueBitsAgree) : t.queueBitsAgree := by
  rw [State.queueBitsAgree, h.line, h.bits]
  exact agrees

theorem State.SameQueues.quiescent (h : s.SameQueues t) (quiet : t.quiescent) : s.quiescent := by
  rw [State.quiescent, ← h.xferH, ← h.xferW]
  exact quiet

theorem State.SameQueues.send (h : s.SameQueues u) (p : Port) (r : Response) : s.SameQueues (u.send p r) :=
  h.trans (.of_registers (by simp))

theorem State.SameQueues.respond (h : s.SameQueues u) (r : Response) : s.SameQueues (u.respond r) := h.send _ r

theorem State.SameQueues.notify (h : s.SameQueues u) (n : Notification) : s.SameQueues (u.notify n) :=
  h.trans (.of_registers (by simp))

theorem State.SameQueues.park (s : State) (tag : Tag) (x : Wait) : s.SameQueues (s.park tag x) :=
  .of_registers (by simp)

/-- A buffer replaced by one of the same size and count. -/
theorem State.SameQueues.setRb {d : Dir} {b : RingBuffer} (size : b.size = (s.rb d).size)
    (count : b.inQueue = (s.rb d).inQueue) : s.SameQueues (s.setRb d b) := by
  cases d
  · exact ⟨rfl, State.queueBits_congr size count rfl rfl rfl rfl, rfl, rfl⟩
  · exact ⟨rfl, State.queueBits_congr rfl rfl size count rfl rfl, rfl, rfl⟩

/-- A change of bits that are no queue bits. -/
theorem State.SameQueues.changeState (s : State) (n : Word) {m : Word} (apart : m &&& Mask.queue = 0#32) :
    s.SameQueues (s.changeState n m) := by
  have line : mergeBits s.line n m &&& Mask.queue = s.line &&& Mask.queue := by
    apply BitVec.eq_of_getLsbD_eq
    intro i _
    rw [BitVec.getLsbD_and, BitVec.getLsbD_and, mergeBits_bit]
    split
    · next hm => rw [and_eq_zero_iff.mp apart i hm, Bool.and_false, Bool.and_false]
    · rfl
  exact ⟨by rw [State.changeState_line, line], s.changeState_queueBits n m, s.changeState_xferH n m, s.changeState_xferW n m⟩

end SameQueues

/-! ### Agreement where it is made -/

section Agreement

variable {s : State}

/-- Answering leaves the agreement as it is. -/
theorem State.queueBitsAgree.send (agrees : s.queueBitsAgree) (p : Port) (r : Response) : (s.send p r).queueBitsAgree :=
  ((State.SameQueues.refl s).send p r).agrees agrees

theorem State.queueBitsAgree.respond (agrees : s.queueBitsAgree) (r : Response) : (s.respond r).queueBitsAgree :=
  agrees.send _ r

/-- A transfer record is no part of the agreement. -/
theorem State.queueBitsAgree.setXfer (agrees : s.queueBitsAgree) (p : Port) (x : Xfer) :
    (s.setXfer p x).queueBitsAgree := by
  have bits : (s.setXfer p x).queueBits = s.queueBits :=
    State.queueBits_congr (by simp) (by simp) (by simp) (by simp) (by simp) (by simp)
  rw [State.queueBitsAgree, State.setXfer_line, bits]
  exact agrees

/-- An acquisition writes the queue bits of the buffers it has opened (R153). -/
theorem State.acquisition_agrees (s : State) : s.acquisition.queueBitsAgree := by
  have outside : Mask.defaultPattern &&& Mask.queue = 0#32 := by decide
  rw [State.queueBitsAgree, State.acquisition, State.changeState_line, mergeBits_all, State.changeState_queueBits,
    BitVec.and_comm, BitVec.and_or_distrib_left, BitVec.and_comm, outside, BitVec.zero_or, BitVec.and_comm,
    State.queueBits_and_queue]

/-- The fold of a transfer (R263, R266). -/
theorem foldStep_agrees (p : Port) (job : XferJob) (n : Nat) (moved : List Byte) (s : State) :
    (foldStep p job n moved s).queueBitsAgree :=
  (State.fold_agrees _).send p _

end Agreement

/-! ### What an instruction does to the agreement -/

/-- What a command other than RELEASE and the raw operations does to what R271 relates: nothing, or the agreement is made. -/
inductive QueueStep (s : State) : State → Prop
  | kept {t : State} (same : s.SameQueues t) : QueueStep s t
  | settled {t : State} (agrees : t.queueBitsAgree) : QueueStep s t
  /-- a transfer accepted -/
  | loaded (job : XferJob) : QueueStep s (s.setXfer s.issuer (.copy job))

section Instructions

variable {i : Instr} {tag : Tag} {a b : Word} {s t : State}

theorem QueueStep.of_kept {u : State} (h : (.next u : Host.Outcome State Fault Refusal) = .next t)
    (same : s.SameQueues u) : QueueStep s t := by
  cases h
  exact .kept same

/-- An answer, often an error, with nothing else done. -/
theorem QueueStep.of_respond {r : Response} (h : (.next (s.respond r) : Host.Outcome State Fault Refusal) = .next t) :
    QueueStep s t := .of_kept h ((State.SameQueues.refl s).respond r)

theorem QueueStep.of_settled {u : State} (h : (.next u : Host.Outcome State Fault Refusal) = .next t)
    (agrees : u.queueBitsAgree) : QueueStep s t := by
  cases h
  exact .settled agrees

/-- RB_BEGINDR is the one ring-buffer operation that writes its buffer and not the size or the count of it (R130). -/
theorem runRbBegindr_queues {d : Dir} (h : runRbBegindr d tag a s = .next t) : QueueStep s t := by
  unfold runRbBegindr at h
  split at h
  · next b hexpose =>
    have frame := RingBuffer.expose_frame hexpose
    exact .of_kept h ((State.SameQueues.setRb (by rw [frame]) (by rw [frame])).respond _)
  · cases h

theorem runAcquire_queues {blocking : Bool} (h : runAcquire blocking tag s = .next t) : QueueStep s t := by
  unfold runAcquire at h
  split at h
  · exact .of_respond h
  · split at h
    · exact .of_settled h (s.acquisition_agrees.respond _)
    · split at h
      · exact .of_respond h
      · split at h
        · exact .of_respond h
        · exact .of_kept h (.park s tag _)

/-- The bits that SETSTATE can write are no queue bits (R31). -/
theorem settable_and_queue {m : Word} (settable : m &&& ~~~Mask.settable = 0#32) : m &&& Mask.queue = 0#32 :=
  and_eq_zero_iff.mpr fun i hi =>
    and_eq_zero_iff.mp (by decide : Mask.settable &&& Mask.queue = 0#32) i (and_not_eq_zero_iff.mp settable i hi)

theorem runSetstate_queues (h : runSetstate tag a b s = .next t) : QueueStep s t := by
  unfold runSetstate at h
  split at h
  · exact .of_respond h
  · next legal =>
    split at h
    · exact .of_respond h
    · have apart := settable_and_queue (writableMask_settable (s := s) (not_not.mp legal))
      exact .of_kept h ((State.SameQueues.changeState s a apart).respond _)

theorem runWatchstate_queues (h : runWatchstate tag a b s = .next t) : QueueStep s t := by
  unfold runWatchstate at h
  split at h
  · exact .of_respond h
  · split at h
    · exact .of_respond h
    · split at h
      · exact .of_respond h
      · exact .of_respond h
      · split at h
        · exact .of_respond h
        · exact .of_kept h (.park s tag _)

theorem runCancelwait_queues (h : runCancelwait tag s = .next t) : QueueStep s t := by
  unfold runCancelwait at h
  split at h
  · exact .of_respond h
  · split at h
    · exact .of_respond h
    · exact .of_kept h (.respond (.of_registers (by simp)) _)

theorem runTerminate_queues (h : runTerminate tag s = .next t) : QueueStep s t := by
  have kept : s.SameQueues s.terminated := .of_registers (by rw [State.terminated_eq]; simp)
  exact .of_kept h (kept.respond _)

theorem runDeqRx_queues (h : runDeqRx tag a b s = .next t) : QueueStep s t := by
  unfold runDeqRx at h
  split at h
  · exact .of_respond h
  · split at h
    · exact .of_respond h
    · cases h
      exact .loaded _

/-- The bits that an event changes are no queue bits (R191, R205). -/
theorem eventChange_and_queue {n m : Word} (change : eventChange i n m) : m &&& Mask.queue = 0#32 := by
  rcases change with rfl | ⟨rfl, -⟩ | ⟨rfl, -⟩ <;> decide

theorem exec_event_queues (op : i.opc = Opc.exec) (h : exec i s = .next t) : QueueStep s t := by
  obtain ⟨v, _, k, n, m, event, change⟩ := exec_event s op
  have applied : s.SameQueues ((s.setBank k).changeState n m) :=
    (State.SameQueues.of_registers (by simp)).trans (.changeState (s.setBank k) n (eventChange_and_queue change))
  rw [event] at h
  unfold State.configEvent at h
  split at h
  · exact .of_respond h
  · split at h
    · exact .of_respond h
    · exact .of_kept h ((applied.notify _).respond _)

/-- What carrying out an instruction does to what R271 relates. -/
theorem exec_queues (hraw : ¬ rawOccupancy i.opc) (hrelease : i.opc ≠ Opc.release) (h : exec i s = .next t) :
    QueueStep s t := by
  by_cases op : i.opc = Opc.exec
  · exact exec_event_queues op h
  cases i with
  | rbInit | rbPush | rbPop | rbPushbulk | rbPopbulk | rbEnddr | rbClose => exact absurd (of_decide_eq_true rfl) hraw
  | rbBegindr => exact runRbBegindr_queues h
  | acquire => exact runAcquire_queues h
  | release => exact absurd rfl hrelease
  | lreset | getstate => exact .of_settled h ((State.fold_agrees _).respond _)
  | setstate => exact runSetstate_queues h
  | watchstate => exact runWatchstate_queues h
  | cancelwait => exact runCancelwait_queues h
  | terminate => exact runTerminate_queues h
  | snapshot => exact .of_kept h (((State.SameQueues.refl s).notify _).respond _)
  | enqRx => cases h; exact .loaded _
  | deqRx => exact runDeqRx_queues h
  | rbFree | rbUsed | rbCap | rbStatus | enqTx
  | reqEvActive | reqEvDataRate | reqEvDataSize | reqEvStopBits | reqEvTxParity | reqEvRxParity | reqEvXonByte
  | reqEvXoffByte | reqEvSpecialByte | reqEvValidDataByte | reqEvMinLatency | reqEvDataLatency | reqEvCharLatency
  | reqEvFlowControl | reqEvLineBreak | reqEvRxqSize | reqEvTxqSize | reqEvRxqHighWater | reqEvRxqLowWater
  | reqEvTxqHighWater | reqEvTxqLowWater => exact .of_respond h
  | _ => exact absurd rfl op

end Instructions

/-! ### What a turn does to the agreement -/

section Turns

variable {s t : State} {p : Port}

theorem State.quiescent_iff : s.quiescent ↔ ∀ p, (s.xfer p).folding = false :=
  ⟨fun ⟨hH, hW⟩ p => by cases p <;> assumption, fun h => ⟨h .H, h .W⟩⟩

/-- A transfer record that is not between copy and fold does not disturb the agreement of the others. -/
theorem State.quiescent_of_setXfer {x : Xfer} (resting : (s.xfer p).folding = false) (quiet : (s.setXfer p x).quiescent) :
    s.quiescent := by
  rw [State.quiescent_iff] at quiet ⊢
  intro q
  by_cases own : q = p
  · rw [own, resting]
  · rw [← State.setXfer_xfer_ne s p q x own, quiet q]

/-- The queue bits agree while no transfer is between its copy and its fold (R271). -/
abbrev State.agreesAtRest (s : State) : Prop := s.quiescent → s.queueBitsAgree

theorem State.SameQueues.agreesAtRest (h : s.SameQueues t) (hs : s.agreesAtRest) : t.agreesAtRest :=
  fun quiet => h.agrees (hs (h.quiescent quiet))

theorem QueueStep.agreesAtRest (h : QueueStep s t) (resting : (s.xfer s.issuer).folding = false) (hs : s.agreesAtRest) :
    t.agreesAtRest := by
  intro quiet
  cases h with
  | kept same => exact same.agreesAtRest hs quiet
  | settled agrees => exact agrees
  | loaded job =>
    exact (hs (State.quiescent_of_setXfer resting quiet)).setXfer _ _

theorem State.SameQueues.taking (s : State) (p : Port) (rest : List Command) : s.SameQueues (s.taking p rest) :=
  .of_registers (by simp)

/-- A frame that names no instruction is answered. -/
theorem runCommand_queues {c : Command}
    (plain : ∀ i, decode c.frame c.payload = .ok i → ¬ rawOccupancy i.opc ∧ i.opc ≠ Opc.release)
    (h : runCommand c s = .next t) : QueueStep s t := by
  unfold runCommand at h
  split at h
  · next i hi => exact exec_queues (plain i hi).1 (plain i hi).2 h
  · cases h
  all_goals exact .of_respond h

/-- A port accepts a command only while no transfer of its own is in flight (R67). -/
theorem acceptStep_agreesAtRest
    (plain : ∀ c rest i, s.pend p = c :: rest → decode c.frame c.payload = .ok i →
      ¬ rawOccupancy i.opc ∧ i.opc ≠ Opc.release)
    (h : acceptStep p s = .next t) (hs : s.agreesAtRest) : t.agreesAtRest := by
  unfold acceptStep at h
  split at h
  · cases h
    exact hs
  · next c rest first =>
    split at h
    · next idle =>
      have same := State.SameQueues.taking s p rest
      have resting : ((s.taking p rest).xfer (s.taking p rest).issuer).folding = false := by
        have kept : (s.taking p rest).xfer p = s.xfer p := by cases p <;> rfl
        rw [State.taking_issuer, kept, idle]
        rfl
      exact (runCommand_queues (fun i => plain c rest i first) h).agreesAtRest resting (same.agreesAtRest hs)
    · cases h
      exact hs

/-- A re-test answers, puts its wait back to sleep, or acquires the line (R166). -/
theorem State.retest_queues (s : State) (w : Nat) (x : Wait) :
    s.SameQueues (s.retest w x) ∨ (s.retest w x).queueBitsAgree := by
  have asleep : s.SameQueues (s.repark w x) := .of_registers (by simp)
  have completed (k : Status) (d0 : Word) : s.SameQueues (s.complete w x k d0) := .of_registers (by simp)
  unfold State.retest
  split
  · unfold State.retestWatch
    split
    · exact .inl (completed _ _)
    · exact .inl (completed _ _)
    · exact .inl asleep
  · unfold State.retestAcquire
    split
    · exact .inl asleep
    · exact .inr ((State.acquisition_agrees _).send _ _)

theorem retestStep_agreesAtRest (w : Nat) (hs : s.agreesAtRest) : (retestStep w s).agreesAtRest := by
  unfold retestStep
  split
  · next x _ =>
    split
    · rcases s.retest_queues w x with same | agrees
      · exact same.agreesAtRest hs
      · exact fun _ => agrees
    · exact hs
  · exact hs

/-- What a copy leaves is not quiescent: its fold is still to come. -/
theorem copyStep_not_quiescent {job : XferJob} (h : copyStep p job s = .next t) : ¬ t.quiescent := by
  have folding (u : State) (n : Nat) (moved : List Byte) : ¬ (u.setXfer p (.fold job n moved)).quiescent := fun quiet => by
    have done := State.quiescent_iff.mp quiet p
    rw [State.setXfer_xfer_self] at done
    cases done
  unfold copyStep at h
  split at h
  all_goals
    split at h
    · cases h
      exact folding _ _ _
    · cases h

theorem transferStep_agreesAtRest (h : transferStep p s = .next t) (hs : s.agreesAtRest) : t.agreesAtRest := by
  unfold transferStep at h
  split at h
  · cases h
    exact hs
  · exact fun quiet => absurd quiet (copyStep_not_quiescent h)
  · cases h
    exact fun _ => foldStep_agrees _ _ _ _ _

end Turns

/-! ### The statement -/

/-- RELEASE is refused with an answer alone, or clears the word of an owned line and answers (R155). -/
theorem exec_release_cases {tag : Tag} {s t : State} (h : exec (.release tag) s = .next t) :
    (∃ r, t = s.respond r ∧ (s.terminating = true ∨ ¬ hasBit s.line Bit.acquired)) ∨
    ∃ r, t = (s.changeState 0#32 Mask.all).respond r ∧ s.terminating = false ∧ hasBit s.line Bit.acquired := by
  by_cases stopped : s.terminating = true
  · rw [exec_release_offline stopped] at h
    cases h
    exact .inl ⟨_, rfl, .inl stopped⟩
  · have running := Bool.eq_false_iff.mpr stopped
    by_cases held : hasBit s.line Bit.acquired
    · rw [exec_release_released running held] at h
      cases h
      exact .inr ⟨_, rfl, running, held⟩
    · rw [exec_release_notOpen running held] at h
      cases h
      exact .inl ⟨_, rfl, .inr held⟩

/-- What RELEASE leaves beside the counters (log entry 17). -/
theorem exec_release_queues {tag : Tag} {s t : State} (h : exec (.release tag) s = .next t) :
    t.queueBits = s.queueBits ∧ (s.terminating = true ∨ ¬ hasBit s.line Bit.acquired → t.line = s.line) ∧
      (s.terminating = false → hasBit s.line Bit.acquired → (t.queueBitsAgree ↔ s.queueBits = 0#32)) := by
  rcases exec_release_cases h with ⟨r, rfl, refused⟩ | ⟨r, rfl, running, held⟩
  · refine ⟨((State.SameQueues.refl s).respond r).bits, fun _ => s.respond_line r, fun running held => ?_⟩
    exact absurd refused (not_or.mpr ⟨not_terminating running, not_not.mpr held⟩)
  · refine ⟨?_, fun refused => absurd refused (not_or.mpr ⟨not_terminating running, not_not.mpr held⟩), fun _ _ => ?_⟩
    · exact (((State.SameQueues.refl _).respond r).bits).trans (s.changeState_queueBits _ _)
    · exact State.cleared_agrees_iff (by simp [mergeBits_all]) (by simp) (by simp) (by simp) (by simp)

/-- Reset closes both buffers and zeroes the thresholds, whatever the parameters (R47). -/
theorem hardwareReset_queueBits (s : State) : (hardwareReset s).queueBits = 0x00808000#32 := by
  have closed : (hardwareReset s).queueBits = State.reset.queueBits := State.queueBits_congr rfl rfl rfl rfl rfl rfl
  rw [closed]
  decide

/-- Settles O52: a turn leaves the agreement as it found it, or folds, or acquires, or is a copy, after which the state is not
quiescent until its fold. -/
theorem quiescentAgreement : Obligations.QuiescentAgreement := by
  refine ⟨fun i s t h agrees hraw hrelease => ?_, fun turn s t h noReset plain hs quiet => ?_, ?_, ?_, ?_,
    fun tag s t h => exec_release_queues h, fun s t h => ?_⟩
  · cases exec_queues hraw hrelease h with
    | kept same => exact same.agrees agrees
    | settled agrees => exact agrees
    | loaded job => exact agrees.setXfer _ _
  · cases turn with
    | present p c =>
      cases h
      have same : s.SameQueues (s.setPend p (s.pend p ++ [c])) := .of_registers (by simp)
      exact same.agreesAtRest hs quiet
    | accept p => exact acceptStep_agreesAtRest (fun c rest i => plain p c rest i rfl) h hs quiet
    | retest w =>
      cases h
      exact retestStep_agreesAtRest w hs quiet
    | transfer p => exact transferStep_agreesAtRest h hs quiet
    | reset => exact absurd rfl noReset
  · rintro tag s t (h | h)
    all_goals
      cases h
      exact (State.fold_agrees _).respond _
  · intro blocking tag s t h released running
    rw [exec_acquire_free running released] at h
    cases h
    exact s.acquisition_agrees.respond _
  · intro p job n moved s t flight h
    rw [takeTurn_transfer_fold flight] at h
    cases h
    exact foldStep_agrees p job n moved s
  · cases h
    exact ⟨rfl, hardwareReset_queueBits s⟩

end Sys2Proof.Machine
end

section
/-! PROOFS. What carrying out a command can come to, with its causes (60_exceptions.md R281 to R297): the error it raises, or
the one change-state call it makes and the frames it sends. One inversion for all 66 instructions; the statements about
errors, about StateChanged frames and about the modes of the line follow from it. -/

namespace Sys2Proof.Machine

variable {i : Instr} {s t u : State} {n m : Word}

/-! ### Causes of errors (R281 to R286) -/

/-- Why an instruction is answered BadArgument (R283). -/
inductive BadArgument (i : Instr) (s : State) : Prop
  | capacity (d : Dir) (tag : Tag) (a : Word) (op : i = .rbInit d tag a) (bad : a = 0#32 ∨ s.depth d < a.toNat)
  | byte (d : Dir) (tag : Tag) (a : Word) (op : i = .rbPush d tag a) (wide : 0xFF < a.toNat)
  | window (d : Dir) (tag : Tag) (a : Word) (op : i = .rbEnddr d tag a) (beyond : (s.rb d).exposed < a.toNat)
  | mask (tag : Tag) (a b : Word) (op : i = .setstate tag a b)
      (bad : b &&& (Bit.acquired ||| Bit.active ||| ~~~Mask.settable) ≠ 0#32)
  /-- a command that must wait and has no slot -/
  | slot (tag : Tag) (held : hasBit s.line Bit.acquired)
      (op : i = .acquire true tag ∨
        ∃ a b, i = .watchstate tag a b ∧ watchTest s.line a b (autoOf b) = .unsatisfied)
      (noSlot : ¬ s.canPark tag)
  | noWait (tag : Tag) (op : i = .cancelwait tag) (noWait : s.params.nwatch ≤ tag.toNat ∨ s.slot tag.toNat = none)
  | data (held : hasBit s.line Bit.acquired) (refused : dataRefused s.params i)
  | unreadable (tag : Tag) (op : i = .reqEvSpecialByte tag ∨ i = .reqEvValidDataByte tag)
  | bounds (tag : Tag) (a b : Word) (op : i = .deqRx tag a b) (order : a < b)

/-- The errors that an instruction raises, each with its cause. -/
inductive ErrorCause (i : Instr) (s : State) : Status → Prop
  | queueFull (d : Dir) (tag : Tag) (a : Word) (op : i = .rbPush d tag a) (full : (s.rb d).inQueue = (s.rb d).size) :
      ErrorCause i s .queueFull
  | queueEmpty (d : Dir) (tag : Tag) (op : i = .rbPop d tag) (empty : (s.rb d).inQueue = 0) : ErrorCause i s .queueEmpty
  | badArgument (bad : BadArgument i s) : ErrorCause i s .badArgument
  | notAcquired (op : i.opc = 0x11#8 ∨ i.opc = 0x13#8 ∨ i.opc = 0x15#8 ∨ i.opc = 0x30#8)
      (released : ¬ hasBit s.line Bit.acquired) : ErrorCause i s .notOpen
  | notActive (op : i.opc = 0x21#8) (inactive : ¬ hasBit s.line Bit.active) : ErrorCause i s .notOpen
  | contended (tag : Tag) (op : i = .acquire false tag) (held : hasBit s.line Bit.acquired) :
      ErrorCause i s .exclusiveAccess
  | offline (op : i.opc = 0x10#8 ∨ i.opc = 0x11#8 ∨ i.opc = 0x15#8) (stopped : s.terminating = true) :
      ErrorCause i s .offline

/-! ### The change of `State` that an instruction asks for (R150) -/

/-- The new bits and the mask of the one change-state call that instruction `i` makes; mask 0 stands for no call. -/
inductive LineCall (i : Instr) (s : State) : Word → Word → Prop
  | none : LineCall i s 0#32 0#32
  | acquire (blocking : Bool) (tag : Tag) (q : Word) (op : i = .acquire blocking tag) (running : s.terminating = false)
      (released : ¬ hasBit s.line Bit.acquired) (queue : q &&& ~~~Mask.queue = 0#32) :
      LineCall i s (Mask.defaultPattern ||| q) Mask.all
  | release (tag : Tag) (op : i = .release tag) (running : s.terminating = false) : LineCall i s 0#32 Mask.all
  | fold (n : Word) (op : i.opc = 0x12#8 ∨ i.opc = 0x14#8) : LineCall i s n Mask.queue
  | signals (n m : Word) (op : i.opc = 0x13#8) (settable : m &&& ~~~Mask.settable = 0#32) : LineCall i s n m
  | event (n m : Word) (op : i.opc = 0x30#8) (held : hasBit s.line Bit.acquired) (change : eventChange i n m) :
      LineCall i s n m

theorem mergeBits_none (old n : Word) : mergeBits old n 0#32 = old := by
  apply BitVec.eq_of_getLsbD_eq
  intro j _
  rw [mergeBits_bit]
  simp

/-- As far as `State` and port N show, `t` is `s` after a change-state call with new bits `n` and mask `m` and the sending
of the frames `snaps`. -/
structure State.Called (s t : State) (n m : Word) (snaps : List Notification) : Prop where
  line : t.line = mergeBits s.line n m
  outN : t.outN = s.outN ++ (if t.line ≠ s.line then [.stateChanged t.line] else []) ++ snaps

theorem State.Called.none (line : t.line = s.line) (outN : t.outN = s.outN) : s.Called t 0#32 0#32 [] where
  line := line.trans (mergeBits_none s.line 0#32).symm
  outN := by simp [line, outN]

/-- The change-state path sends the new word if it differs and no other frame (R150, R290). -/
theorem State.Called.changeState (s : State) (n m : Word) : s.Called (s.changeState n m) n m [] where
  line := s.changeState_line n m
  outN := by
    have differs : s.line ^^^ mergeBits s.line n m ≠ 0#32 ↔ mergeBits s.line n m ≠ s.line :=
      not_congr (BitVec.xor_eq_zero_iff.trans eq_comm)
    rw [State.changeState_outN, State.changeState_line, List.append_nil]
    simp only [differs]

/-- What was done before the call and does not show. -/
theorem State.Called.after {snaps : List Notification} (h : u.Called t n m snaps) (line : u.line = s.line)
    (outN : u.outN = s.outN) : s.Called t n m snaps where
  line := by rw [h.line, line]
  outN := by rw [h.outN, line, outN]

/-- What was done after the call and does not show. -/
theorem State.Called.before {snaps : List Notification} (h : s.Called u n m snaps) (line : t.line = u.line)
    (outN : t.outN = u.outN) : s.Called t n m snaps where
  line := by rw [line, h.line]
  outN := by rw [outN, line, h.outN]

theorem State.Called.notify (h : s.Called u n m []) (f : Notification) : s.Called (u.notify f) n m [f] where
  line := h.line
  outN := by rw [State.notify_outN, State.notify_line, h.outN, List.append_nil]

theorem State.Called.respond {snaps : List Notification} (h : s.Called u n m snaps) (r : Response) :
    s.Called (u.respond r) n m snaps := h.before (u.respond_line r) (u.respond_outN r)

/-- What instruction `i` makes of `State` and sends on port N (R290, R291). -/
inductive LineEffect (i : Instr) (s t : State) : Prop
  | plain (n m : Word) (call : LineCall i s n m) (called : s.Called t n m [])
  | snapshot (n m : Word) (call : LineCall i s n m) (called : s.Called t n m [.configSnapshot t.bank.snapshot])
      (op : i.opc = 0x30#8 ∨ i.opc = 0x18#8)

theorem LineEffect.none (line : t.line = s.line) (outN : t.outN = s.outN) : LineEffect i s t :=
  .plain _ _ .none (.none line outN)

theorem LineEffect.respond (h : LineEffect i s u) (r : Response) : LineEffect i s (u.respond r) := by
  cases h with
  | plain n m call called => exact .plain n m call (called.respond r)
  | snapshot n m call called op =>
    refine .snapshot n m call ?_ op
    rw [State.respond_bank]
    exact called.respond r

/-! ### What carrying out an instruction can come to -/

/-- One case for each way in which an instruction can end, with its cause and with all that it sends. -/
inductive CommandEffect (i : Instr) (s : State) : State → Prop
  | raised (k : Status) (cause : ErrorCause i s k) : CommandEffect i s (s.raise k i.opc i.tag)
  /-- a WATCHSTATE ended by its implicit wait for `ACTIVE` false (R288) -/
  | ioError (tag : Tag) (a b : Word) (op : i = .watchstate tag a b) (implicit : autoOf b = true)
      (inactive : ¬ hasBit s.line Bit.active) :
      CommandEffect i s (s.respond { status := .ioError, opc := Opc.watchstate, tag := tag, d0 := s.visibleLine })
  /-- success, with nothing sent on the ports but the answer -/
  | answered (u : State) (r : Response) (effect : LineEffect i s u) (outH : u.outH = s.outH) (outW : u.outW = s.outW)
      (ok : r.status = .ok) : CommandEffect i s (u.respond r)
  | cancelled (tag : Tag) (x : Wait) (op : i = .cancelwait tag) (slot : s.slot tag.toNat = some x) :
      CommandEffect i s
        ((s.complete tag.toNat x .cancelled 0#32).wakeAll.respond { opc := Opc.cancelwait, tag := tag })
  | terminated (tag : Tag) (op : i = .terminate tag) :
      CommandEffect i s (s.terminated.respond { opc := Opc.terminate, tag := tag })
  /-- a wait parked or a transfer loaded -/
  | waits (t : State) (line : t.line = s.line) (outN : t.outN = s.outN) (outH : t.outH = s.outH)
      (outW : t.outW = s.outW) : CommandEffect i s t

theorem CommandEffect.of_raise {k : Status} {o : Byte} {tag : Tag}
    (h : (.next (s.raise k o tag) : Host.Outcome State Fault Refusal) = .next t) (cause : ErrorCause i s k)
    (opc : o = i.opc) (htag : tag = i.tag) : CommandEffect i s t := by
  subst opc htag
  cases h
  exact .raised k cause

/-- An answer after updates that neither `State` nor any port shows. -/
theorem CommandEffect.of_quiet {r : Response} (h : (.next (u.respond r) : Host.Outcome State Fault Refusal) = .next t)
    (ok : r.status = .ok) (line : u.line = s.line) (outN : u.outN = s.outN) (outH : u.outH = s.outH)
    (outW : u.outW = s.outW) : CommandEffect i s t := by
  cases h
  exact .answered u r (.none line outN) outH outW ok

theorem CommandEffect.of_read {r : Response} (h : (.next (s.respond r) : Host.Outcome State Fault Refusal) = .next t)
    (ok : r.status = .ok) : CommandEffect i s t := .of_quiet h ok rfl rfl rfl rfl

/-- A ring buffer replaced, and the answer (R120). -/
theorem CommandEffect.of_setRb {d : Dir} {b : RingBuffer} {r : Response}
    (h : (.next ((s.setRb d b).respond r) : Host.Outcome State Fault Refusal) = .next t) (ok : r.status = .ok) :
    CommandEffect i s t := .of_quiet h ok (by simp) (by simp) (by simp) (by simp)

/-- A change-state call, and the answer. -/
theorem CommandEffect.of_changeState {r : Response}
    (h : (.next ((u.changeState n m).respond r) : Host.Outcome State Fault Refusal) = .next t) (ok : r.status = .ok)
    (call : LineCall i s n m) (line : u.line = s.line) (outN : u.outN = s.outN) (outH : u.outH = s.outH)
    (outW : u.outW = s.outW) : CommandEffect i s t := by
  cases h
  refine .answered _ r (.plain n m call ((State.Called.changeState u n m).after line outN)) ?_ ?_ ok
  · rw [State.changeState_outH, outH]
  · rw [State.changeState_outW, outW]

/-! ### The ring-buffer operations -/

section Ring

variable {d : Dir} {tag : Tag} {a : Word}

theorem runRbInit_effect (h : runRbInit d tag a s = .next t) : CommandEffect (.rbInit d tag a) s t := by
  unfold runRbInit at h
  split at h
  · next bad => exact .of_raise h (.badArgument (.capacity d tag a rfl bad)) rfl rfl
  · exact .of_setRb h rfl

theorem runRbPush_effect (h : runRbPush d tag a s = .next t) : CommandEffect (.rbPush d tag a) s t := by
  unfold runRbPush at h
  split at h
  · next wide => exact .of_raise h (.badArgument (.byte d tag a rfl (Nat.lt_of_not_le wide))) rfl rfl
  · split at h
    · next full => exact .of_raise h (.queueFull d tag a rfl full) rfl rfl
    · split at h
      · exact .of_setRb h rfl
      · cases h

theorem runRbPop_effect (h : runRbPop d tag s = .next t) : CommandEffect (.rbPop d tag) s t := by
  unfold runRbPop at h
  split at h
  · next empty => exact .of_raise h (.queueEmpty d tag rfl empty) rfl rfl
  · split at h
    · exact .of_setRb h rfl
    · cases h

theorem runRbPushbulk_effect {bytes : List Byte} (h : runRbPushbulk d tag bytes s = .next t) : CommandEffect i s t := by
  unfold runRbPushbulk at h
  split at h
  · exact .of_setRb h rfl
  · cases h

theorem runRbPopbulk_effect (h : runRbPopbulk d tag a s = .next t) : CommandEffect i s t := by
  unfold runRbPopbulk at h
  split at h
  · exact .of_setRb h rfl
  · cases h

theorem runRbBegindr_effect (h : runRbBegindr d tag a s = .next t) : CommandEffect i s t := by
  unfold runRbBegindr at h
  split at h
  · exact .of_setRb h rfl
  · cases h

theorem runRbEnddr_effect (h : runRbEnddr d tag a s = .next t) : CommandEffect (.rbEnddr d tag a) s t := by
  unfold runRbEnddr at h
  split at h
  · next beyond => exact .of_raise h (.badArgument (.window d tag a rfl beyond)) rfl rfl
  · exact .of_setRb h rfl

end Ring

/-! ### The line-state operations and the transfers -/

section Line

variable {tag : Tag} {a b : Word}

theorem runAcquire_effect {blocking : Bool} (h : runAcquire blocking tag s = .next t) :
    CommandEffect (.acquire blocking tag) s t := by
  unfold runAcquire at h
  split at h
  · next stopped => exact .of_raise h (.offline (.inl rfl) stopped) rfl rfl
  · next running =>
    split at h
    · next released =>
      exact .of_changeState h rfl
        (.acquire blocking tag _ rfl (Bool.eq_false_iff.mpr running) released s.rebuild.queueBits_queue) rfl rfl rfl rfl
    · next contended =>
      have held := not_not.mp contended
      split at h
      · next polls =>
        subst polls
        exact .of_raise h (.contended tag rfl held) rfl rfl
      · next blocks =>
        obtain rfl := Bool.eq_true_of_not_eq_false blocks
        split at h
        · next noSlot => exact .of_raise h (.badArgument (.slot tag held (.inl rfl) noSlot)) rfl rfl
        · cases h
          exact .waits _ rfl rfl rfl rfl

theorem runRelease_effect (h : runRelease tag s = .next t) : CommandEffect (.release tag) s t := by
  unfold runRelease at h
  split at h
  · next stopped => exact .of_raise h (.offline (.inr (.inl rfl)) stopped) rfl rfl
  · next running =>
    split at h
    · next released => exact .of_raise h (.notAcquired (.inl rfl) released) rfl rfl
    · exact .of_changeState h rfl (.release tag rfl (Bool.eq_false_iff.mpr running)) rfl rfl rfl rfl

theorem runSetstate_effect (h : runSetstate tag a b s = .next t) : CommandEffect (.setstate tag a b) s t := by
  unfold runSetstate at h
  split at h
  · next bad => exact .of_raise h (.badArgument (.mask tag a b rfl bad)) rfl rfl
  · next legal =>
    split at h
    · next released => exact .of_raise h (.notAcquired (.inr (.inl rfl)) released) rfl rfl
    · exact .of_changeState h rfl (.signals a _ rfl (writableMask_settable (not_not.mp legal))) rfl rfl rfl rfl

/-- The test answers IOError only where an implicit wait finds the line inactive (R162). -/
theorem implicit_of_watchTest_ioError {line target mask : Word} {auto : Bool}
    (test : watchTest line target mask auto = .ioError) : auto = true ∧ ¬ hasBit line Bit.active := by
  unfold watchTest at test
  split at test
  · assumption
  · split at test <;> cases test

theorem runWatchstate_effect (h : runWatchstate tag a b s = .next t) : CommandEffect (.watchstate tag a b) s t := by
  unfold runWatchstate at h
  split at h
  · next stopped => exact .of_raise h (.offline (.inr (.inr rfl)) stopped) rfl rfl
  · split at h
    · next released => exact .of_raise h (.notAcquired (.inr (.inr (.inl rfl))) released) rfl rfl
    · next owned =>
      split at h
      · next test =>
        cases h
        obtain ⟨implicit, inactive⟩ := implicit_of_watchTest_ioError test
        exact .ioError tag a b rfl implicit inactive
      · exact .of_read h rfl
      · next test =>
        split at h
        · next noSlot =>
          exact .of_raise h (.badArgument (.slot tag (not_not.mp owned) (.inr ⟨a, b, rfl, test⟩) noSlot)) rfl rfl
        · cases h
          exact .waits _ rfl rfl rfl rfl

theorem runCancelwait_effect (h : runCancelwait tag s = .next t) : CommandEffect (.cancelwait tag) s t := by
  unfold runCancelwait at h
  split at h
  · next beyond => exact .of_raise h (.badArgument (.noWait tag rfl (.inl (Nat.le_of_not_lt beyond)))) rfl rfl
  · split at h
    · next free => exact .of_raise h (.badArgument (.noWait tag rfl (.inr free))) rfl rfl
    · next x slot =>
      cases h
      exact .cancelled tag x rfl slot

/-- A transfer accepted: nothing is sent. -/
theorem CommandEffect.of_setXfer {p : Port} {x : Xfer}
    (h : (.next (s.setXfer p x) : Host.Outcome State Fault Refusal) = .next t) : CommandEffect i s t := by
  cases h
  exact .waits _ (by simp) (by simp) (by simp) (by simp)

theorem runDeqRx_effect (h : runDeqRx tag a b s = .next t) : CommandEffect (.deqRx tag a b) s t := by
  unfold runDeqRx at h
  split at h
  · next order => exact .of_raise h (.badArgument (.bounds tag a b rfl order)) rfl rfl
  · split at h
    · next inactive => exact .of_raise h (.notActive rfl inactive) rfl rfl
    · exact .of_setXfer h

end Line

/-! ### The events -/

theorem outside_range {lo hi x : Nat} (outside : ¬ (lo ≤ x ∧ x ≤ hi)) : x < lo ∨ hi < x := by omega

/-- Every event is an application under the range of its kind, and outside it the operand is one the rules refuse
(R192 to R200, R204). -/
theorem exec_event_range (op : i.opc = 0x30#8) (s : State) :
    ∃ (valid : Prop) (_ : Decidable valid) (u : State),
      exec i s = .next (s.configEvent i.tag valid u) ∧ (¬ valid → dataRefused s.params i) := by
  cases i with
  | execEvDataRate tag a => exact ⟨_, _, _, rfl, outside_range⟩
  | execEvDataSize tag a => exact ⟨_, _, _, rfl, outside_range (lo := 5) (hi := 8)⟩
  | execEvTxParity tag a =>
    refine ⟨_, _, _, rfl, fun illegal => ?_⟩
    rcases outside_range (lo := 1) (hi := 5) illegal with low | high
    · exact .inl (Nat.lt_one_iff.mp low)
    · exact .inr high
  | execEvRxParity tag a =>
    refine ⟨_, _, _, rfl, fun illegal => ?_⟩
    obtain ⟨notNone, notMark⟩ := not_or.mp illegal
    exact ⟨fun h => notNone (BitVec.eq_of_toNat_eq h), fun h => notMark (BitVec.eq_of_toNat_eq h)⟩
  | execEvStopBits | execEvXonByte | execEvXoffByte | execEvSpecialByte | execEvValidDataByte =>
    exact ⟨_, _, _, rfl, Nat.lt_of_not_le⟩
  | execEvFlowControl => exact ⟨_, _, _, rfl, id⟩
  | execEvActive | execEvMinLatency | execEvDataLatency | execEvCharLatency | execEvLineBreak | execEvRxqSize
  | execEvTxqSize | execEvRxqHighWater | execEvRxqLowWater | execEvTxqHighWater | execEvTxqLowWater =>
    exact ⟨_, _, _, rfl, absurd trivial⟩
  | _ => exact absurd (beq_iff_eq.mpr op) Bool.false_ne_true

/-- An owned line refuses an event for its data alone. -/
theorem dataRefused_of_exec_event (op : i.opc = 0x30#8) (held : hasBit s.line Bit.acquired)
    (refused : exec i s = .next (s.eventRefused i.tag .badArgument)) : dataRefused s.params i := by
  obtain ⟨valid, _, u, event, outside⟩ := exec_event_range op s
  refine outside fun legal => ?_
  rw [event, configEvent_done held legal] at refused
  have answers := congrArg State.lastAnswer (Host.Outcome.next.inj refused)
  rw [State.lastAnswer_respond, State.lastAnswer_respond] at answers
  cases answers

theorem exec_event_effect (op : i.opc = 0x30#8) (h : exec i s = .next t) : CommandEffect i s t := by
  obtain ⟨valid, _, k, n, m, event, change⟩ := exec_event s op
  rw [event] at h
  by_cases held : hasBit s.line Bit.acquired
  · by_cases legal : valid
    · rw [configEvent_done held legal] at h
      cases h
      have called := (State.Called.changeState (s.setBank k) n m).after (s.setBank_line k) (s.setBank_outN k)
      exact .answered _ _ (.snapshot n m (.event n m op held change) (called.notify _) (.inl op)) (by simp) (by simp) rfl
    · rw [configEvent_refused held legal] at event h
      exact .of_raise h (.badArgument (.data held (dataRefused_of_exec_event op held event))) op.symm rfl
  · rw [configEvent_notOpen held] at h
    exact .of_raise h (.notAcquired (.inr (.inr (.inr op))) held) op.symm rfl

/-! ### Every instruction -/

/-- What carrying out an instruction can come to. -/
theorem exec_effect (h : exec i s = .next t) : CommandEffect i s t := by
  by_cases op : i.opc = 0x30#8
  · exact exec_event_effect op h
  cases i with
  | rbInit => exact runRbInit_effect h
  | rbPush => exact runRbPush_effect h
  | rbPop => exact runRbPop_effect h
  | rbPushbulk => exact runRbPushbulk_effect h
  | rbPopbulk => exact runRbPopbulk_effect h
  | rbBegindr => exact runRbBegindr_effect h
  | rbEnddr => exact runRbEnddr_effect h
  | rbClose => exact .of_setRb h rfl
  | acquire => exact runAcquire_effect h
  | release => exact runRelease_effect h
  | lreset => exact .of_changeState h rfl (.fold _ (.inl rfl)) rfl rfl rfl rfl
  | setstate => exact runSetstate_effect h
  | getstate => exact .of_changeState h rfl (.fold _ (.inr rfl)) rfl rfl rfl rfl
  | watchstate => exact runWatchstate_effect h
  | cancelwait => exact runCancelwait_effect h
  | terminate tag =>
    cases h
    exact .terminated tag rfl
  | snapshot tag =>
    cases h
    exact .answered _ _ (.snapshot _ _ .none ((State.Called.none rfl rfl).notify _) (.inr rfl)) rfl rfl rfl
  | enqRx => exact .of_setXfer h
  | deqRx => exact runDeqRx_effect h
  | reqEvSpecialByte tag => exact .of_raise h (.badArgument (.unreadable tag (.inl rfl))) rfl rfl
  | reqEvValidDataByte tag => exact .of_raise h (.badArgument (.unreadable tag (.inr rfl))) rfl rfl
  | rbFree | rbUsed | rbCap | rbStatus | enqTx
  | reqEvActive | reqEvDataRate | reqEvDataSize | reqEvStopBits | reqEvTxParity | reqEvRxParity | reqEvXonByte
  | reqEvXoffByte | reqEvMinLatency | reqEvDataLatency | reqEvCharLatency | reqEvFlowControl | reqEvLineBreak
  | reqEvRxqSize | reqEvTxqSize | reqEvRxqHighWater | reqEvRxqLowWater | reqEvTxqHighWater | reqEvTxqLowWater =>
    exact .of_read h rfl
  | _ => exact absurd rfl op

/-- What it makes of `State` and sends on port N. -/
theorem CommandEffect.line (h : CommandEffect i s t) : LineEffect i s t := by
  cases h with
  | raised => exact .none (s.respond_line _) (s.respond_outN _)
  | ioError => exact .none (s.respond_line _) (s.respond_outN _)
  | answered u r effect => exact effect.respond r
  | cancelled => exact .none (by simp) (by simp)
  | terminated => exact .none (by rw [State.terminated_eq]; simp) (by rw [State.terminated_eq]; simp)
  | waits _ line outN => exact .none line outN

end Sys2Proof.Machine
end

section
/-! PROOFS. Errors (60_exceptions.md R281 to R288, R293): an error is its answer alone, and every response that a command or
a turn sends has its cause. -/

namespace Sys2Proof.Machine

variable {i : Instr} {s t u : State} {p : Port} {P : Port → Response → Prop}

/-- Settles O46: an answer that carries an error was sent from the old state, and a command that waits sends none. -/
theorem errorsChangeNothing : Obligations.ErrorsChangeNothing := by
  intro i s t r h sent answer bad
  rcases exec_shape h with ⟨u, q, rfl, -, -, -, kept⟩ | ⟨x, -, -, -, -, rfl⟩ | ⟨job, -, -, rfl⟩
  · obtain rfl := Option.some.inj ((u.lastAnswer_respond q).symm.trans answer)
    rw [kept bad]
  · exact absurd (by cases s.issuer <;> rfl) sent
  · exact absurd (by cases s.issuer <;> simp [State.out]) sent

/-! ### The responses of a step -/

/-- From `s` to `t` the ports have got new responses alone, each of which meets `P`. -/
def State.Sends (P : Port → Response → Prop) (s t : State) : Prop :=
  ∀ p, ∃ new, t.out p = s.out p ++ new ∧ ∀ r ∈ new, P p r

theorem State.Sends.none (outH : t.outH = s.outH) (outW : t.outW = s.outW) : State.Sends P s t := by
  intro p
  have same : t.out p = s.out p := by cases p <;> assumption
  exact ⟨[], by rw [same, List.append_nil], by simp⟩

theorem State.Sends.send (h : State.Sends P s u) {r : Response} (hr : P p r) : State.Sends P s (u.send p r) := by
  intro q
  obtain ⟨new, sent, caused⟩ := h q
  by_cases own : q = p
  · subst own
    refine ⟨new ++ [r], by rw [State.send_out_self, sent, List.append_assoc], fun r' hr' => ?_⟩
    rcases List.mem_append.mp hr' with hr' | hr'
    · exact caused r' hr'
    · rwa [List.mem_singleton.mp hr']
  · exact ⟨new, by rw [State.send_out_ne _ _ _ _ own, sent], caused⟩

theorem State.Sends.respond (h : State.Sends P s u) {r : Response} (hr : P u.issuer r) :
    State.Sends P s (u.respond r) := h.send hr

/-- The new responses of a port are those that were sent. -/
theorem State.Sends.of_mem (h : State.Sends P s t) {new : List Response} {r : Response}
    (sent : t.out p = s.out p ++ new) (hr : r ∈ new) : P p r := by
  obtain ⟨new', sent', caused⟩ := h p
  rw [List.append_cancel_left (sent.symm.trans sent')] at hr
  exact caused r hr

/-- Every answer of a TERMINATE to a parked wait is that of one of the waits. -/
theorem exists_wait_of_mem_offlineAnswers {r : Response} (xs : List (Option Wait)) {w : Nat}
    (hr : r ∈ offlineAnswers p w xs) : r.status = .offline ∧ ∃ (v : Nat) (x : Wait), xs[v]? = some (some x) ∧ x.port = p := by
  induction xs generalizing w with
  | nil => cases hr
  | cons o xs ih =>
    have later (hr : r ∈ offlineAnswers p (w + 1) xs) :
        r.status = .offline ∧ ∃ (v : Nat) (x : Wait), (o :: xs)[v]? = some (some x) ∧ x.port = p := by
      obtain ⟨status, v, x, slot, port⟩ := ih hr
      exact ⟨status, v + 1, x, slot, port⟩
    cases o with
    | none => exact later hr
    | some x =>
      rw [offlineAnswers_some] at hr
      rcases List.mem_append.mp hr with hr | hr
      · split at hr
        · next port =>
          rw [List.mem_singleton.mp hr]
          exact ⟨rfl, 0, x, rfl, port⟩
        · cases hr
      · exact later hr

theorem State.slot_of_getElem? {w : Nat} {x : Wait} (h : s.slots[w]? = some (some x)) : s.slot w = some x := by
  rw [State.slot, h]
  rfl

/-! ### The responses of a command -/

/-- Why carrying out `i`, which takes `s` to `t`, sends `r` on port `p`, by the status of `r`. -/
inductive ResponseCause (i : Instr) (s t : State) (p : Port) (r : Response) : Status → Prop
  | ok : ResponseCause i s t p r .ok
  | raised {k : Status} (cause : ErrorCause i s k) (only : t = s.respond r) (d0 : r.d0 = 0#32) (d1 : r.d1 = 0#32) :
      ResponseCause i s t p r k
  | ioError (tag : Tag) (a b : Word) (op : i = .watchstate tag a b) (implicit : autoOf b = true)
      (inactive : ¬ hasBit s.line Bit.active) (d0 : r.d0 = s.visibleLine) : ResponseCause i s t p r .ioError
  | offline (tag : Tag) (w : Nat) (x : Wait) (op : i = .terminate tag) (slot : s.slot w = some x) (port : x.port = p) :
      ResponseCause i s t p r .offline
  | cancelled (tag : Tag) (x : Wait) (op : i = .cancelwait tag) (slot : s.slot tag.toNat = some x) (port : x.port = p)
      (d0 : r.d0 = 0#32) : ResponseCause i s t p r .cancelled

/-- Every response of a command has its cause. -/
theorem CommandEffect.sends (h : CommandEffect i s t) :
    State.Sends (fun p r => ResponseCause i s t p r r.status) s t := by
  cases h with
  | raised k cause => exact (State.Sends.none rfl rfl).respond (.raised cause rfl rfl rfl)
  | ioError tag a b op implicit inactive =>
    exact (State.Sends.none rfl rfl).respond (.ioError tag a b op implicit inactive rfl)
  | answered u r _ outH outW ok =>
    refine (State.Sends.none outH outW).respond ?_
    rw [ok]
    exact .ok
  | cancelled tag x op slot =>
    rw [State.complete_wakeAll]
    have freed {P : Port → Response → Prop} : State.Sends P s (s.setSlot tag.toNat none).wakeAll := .none rfl rfl
    exact (freed.send (.cancelled tag x op slot rfl rfl)).respond .ok
  | terminated tag op =>
    have ended (q : Port) : s.terminated.out q = s.out q ++ offlineAnswers q 0 s.slots := by
      cases q
      · exact s.terminated_outH
      · exact s.terminated_outW
    refine State.Sends.respond (fun q => ⟨_, ended q, fun r hr => ?_⟩) .ok
    obtain ⟨status, w, x, slot, port⟩ := exists_wait_of_mem_offlineAnswers s.slots hr
    rw [status]
    exact .offline tag w x op (State.slot_of_getElem? slot) port
  | waits _ _ _ outH outW => exact .none outH outW

/-- No slot to park in, put as the rules do (R152, R163). -/
theorem not_canPark_iff {tag : Tag} : ¬ s.canPark tag ↔ s.params.nwatch ≤ tag.toNat ∨ s.slot tag.toNat ≠ none := by
  rw [State.canPark, not_and_or, Nat.not_lt]

/-- The causes of BadArgument in the words of R283. -/
theorem BadArgument.causes (h : BadArgument i s) :
    (∃ d tag a, i = .rbInit d tag a ∧ (a = 0#32 ∨ s.depth d < a.toNat)) ∨
    (∃ d tag a, i = .rbPush d tag a ∧ 0xFF < a.toNat) ∨
    (∃ d tag a, i = .rbEnddr d tag a ∧ (s.rb d).exposed < a.toNat) ∨
    (∃ tag a b, i = .setstate tag a b ∧ b &&& (0x80000000#32 ||| 0x40000000#32 ||| ~~~0x2020001E#32) ≠ 0#32) ∨
    (∃ tag, hasBit s.line 0x80000000#32 ∧ (i = .acquire true tag ∨
        ∃ a b, i = .watchstate tag a b ∧ watchTest s.line a b (autoOf b) = .unsatisfied) ∧
      (s.params.nwatch ≤ tag.toNat ∨ s.slot tag.toNat ≠ none)) ∨
    (∃ tag, i = .cancelwait tag ∧ (s.params.nwatch ≤ tag.toNat ∨ s.slot tag.toNat = none)) ∨
    (hasBit s.line 0x80000000#32 ∧ dataRefused s.params i) ∨
    (∃ tag, i = .reqEvSpecialByte tag ∨ i = .reqEvValidDataByte tag) ∨
    ∃ tag a b, i = .deqRx tag a b ∧ a < b := by
  cases h with
  | capacity d tag a op bad => exact .inl ⟨d, tag, a, op, bad⟩
  | byte d tag a op wide => exact .inr (.inl ⟨d, tag, a, op, wide⟩)
  | window d tag a op beyond => exact .inr (.inr (.inl ⟨d, tag, a, op, beyond⟩))
  | mask tag a b op bad => exact .inr (.inr (.inr (.inl ⟨tag, a, b, op, bad⟩)))
  | slot tag held op noSlot => exact .inr (.inr (.inr (.inr (.inl ⟨tag, held, op, not_canPark_iff.mp noSlot⟩))))
  | noWait tag op noWait => exact .inr (.inr (.inr (.inr (.inr (.inl ⟨tag, op, noWait⟩)))))
  | data held refused => exact .inr (.inr (.inr (.inr (.inr (.inr (.inl ⟨held, refused⟩))))))
  | unreadable tag op => exact .inr (.inr (.inr (.inr (.inr (.inr (.inr (.inl ⟨tag, op⟩)))))))
  | bounds tag a b op order => exact .inr (.inr (.inr (.inr (.inr (.inr (.inr (.inr ⟨tag, a, b, op, order⟩)))))))

/-! ### Frames that name no instruction (R98, R212, R252) -/

/-- A command is an instruction carried out, or a frame that names none, answered BadArgument. -/
theorem runCommand_cases {c : Command} (h : runCommand c s = .next t) :
    (∃ i, decode c.frame c.payload = .ok i ∧ exec i s = .next t) ∨
    ((malformed c.frame ∨ namesNoKind (opcOf c.frame) (selOf c.frame)) ∧
      t = s.raise .badArgument (opcOf c.frame) (tagOf c.frame)) := by
  cases decoded : decode c.frame c.payload with
  | ok i =>
    rw [runCommand, decoded] at h
    exact .inl ⟨i, rfl, h⟩
  | error e =>
    by_cases length : e = .payloadLength
    · rw [runCommand, decoded, length] at h
      cases h
    · have unnamed : malformed c.frame ∨ namesNoKind (opcOf c.frame) (selOf c.frame) := by
        obtain ⟨bad, kind, -, -⟩ := decoderRefusesExactly c.frame c.payload
        rw [decoded] at bad kind
        cases e with
        | reservedField => exact .inl (bad.mpr (.inl rfl))
        | unknownOpcode => exact .inl (bad.mpr (.inr (.inl rfl)))
        | badSelector => exact .inl (bad.mpr (.inr (.inr rfl)))
        | unknownKind => exact .inr (kind.mpr rfl).2
        | payloadLength => exact absurd rfl length
      rw [runCommand_refused s decoded length] at h
      cases h
      exact .inr ⟨unnamed, rfl⟩

/-! ### Turns that take no command -/

/-- The one error of a turn that takes no command: a re-test ended by the implicit wait (R166, R288). -/
def RetestError (turn : Turn) (s : State) (p : Port) (r : Response) : Prop :=
  r.status ≠ .ok → r.status = .ioError ∧ r.d0 = s.visibleLine ∧
    ∃ w x, turn = .retest w ∧ s.slot w = some x ∧ x.port = p ∧ x.kind = .watch ∧ x.auto = true ∧
      ¬ hasBit s.line Bit.active

theorem State.retest_sends {w : Nat} {x : Wait} (slot : s.slot w = some x) :
    State.Sends (RetestError (.retest w) s) s (s.retest w x) := by
  have freed : State.Sends (RetestError (.retest w) s) s (s.setSlot w none) := .none rfl rfl
  unfold State.retest
  split
  · next kind =>
    unfold State.retestWatch
    split
    · next test =>
      obtain ⟨implicit, inactive⟩ := implicit_of_watchTest_ioError test
      exact freed.send fun _ => ⟨rfl, rfl, w, x, rfl, slot, rfl, kind, implicit, inactive⟩
    · exact freed.send (absurd rfl)
    · exact .none rfl rfl
  · unfold State.retestAcquire
    split
    · exact .none rfl rfl
    · have acquired : State.Sends (RetestError (.retest w) s) s (s.setSlot w none).acquisition :=
        .none (State.changeState_outH _ _ _) (State.changeState_outW _ _ _)
      exact acquired.send (absurd rfl)

theorem retestStep_sends (s : State) (w : Nat) : State.Sends (RetestError (.retest w) s) s (retestStep w s) := by
  unfold retestStep
  split
  · next slot =>
    split
    · exact State.retest_sends slot
    · exact .none rfl rfl
  · exact .none rfl rfl

theorem copyStep_sends {job : XferJob} (h : copyStep p job s = .next t) : State.Sends P s t := by
  unfold copyStep at h
  split at h
  all_goals
    split at h
    · cases h
      exact .none (State.setXfer_outH _ p _) (State.setXfer_outW _ p _)
    · cases h

theorem transferStep_sends {turn : Turn} (h : transferStep p s = .next t) : State.Sends (RetestError turn s) s t := by
  unfold transferStep at h
  split at h
  · cases h
    exact .none rfl rfl
  · exact copyStep_sends h
  · cases h
    have folded : State.Sends (RetestError turn s) s (s.setXfer p .idle).fold :=
      .none (by simp [State.fold]) (by simp [State.fold])
    exact folded.send (absurd rfl)

theorem takeTurn_sends {turn : Turn} (noCommand : ∀ q, turn ≠ .accept q) (h : takeTurn turn s = .next t) :
    State.Sends (RetestError turn s) s t := by
  cases turn with
  | present p c =>
    cases h
    exact .none (s.setPend_outH p _) (s.setPend_outW p _)
  | accept p => exact absurd rfl (noCommand p)
  | retest w =>
    cases h
    exact retestStep_sends s w
  | transfer p => exact transferStep_sends h
  | reset =>
    cases h
    exact .none rfl rfl

/-- Settles O47: every response of an instruction has its cause (R281 to R288), a frame that names none gets one BadArgument,
and the other turns send no error but at a re-test. -/
theorem everyStatusHasItsCause : Obligations.EveryStatusHasItsCause := by
  refine ⟨fun i s t p new r h sent hr => ?_, fun c s t p new r unnamed h sent hr => ?_,
    fun turn s t p new r noCommand h sent hr bad => (takeTurn_sends noCommand h).of_mem sent hr bad⟩
  · have cause := (exec_effect h).sends.of_mem sent hr
    refine ⟨fun status => ?_, fun status => ?_, fun status => ?_, fun status => ?_, fun status => ?_, fun status => ?_,
      fun status => ?_, fun status => ?_⟩
    all_goals rw [status] at cause
    · cases cause with
      | raised cause =>
        cases cause with
        | queueFull d tag a op full => exact ⟨d, tag, a, op, full⟩
    · cases cause with
      | raised cause =>
        cases cause with
        | queueEmpty d tag op empty => exact ⟨d, tag, op, empty⟩
    · cases cause with
      | raised cause only d0 d1 =>
        cases cause with
        | badArgument bad => exact ⟨only, d0, d1, bad.causes⟩
    · cases cause with
      | raised cause =>
        cases cause with
        | notAcquired op released => exact .inl ⟨released, op⟩
        | notActive op inactive => exact .inr ⟨inactive, op⟩
    · cases cause with
      | raised cause =>
        cases cause with
        | contended tag op held => exact ⟨tag, op, held⟩
    · cases cause with
      | raised cause =>
        cases cause with
        | offline op stopped => exact .inl ⟨stopped, op⟩
      | offline tag w x op slot port => exact .inr ⟨tag, w, x, op, slot, port⟩
    · cases cause with
      | raised cause => cases cause
      | cancelled tag x op slot port d0 => exact ⟨tag, x, op, slot, port, d0⟩
    · cases cause with
      | raised cause => cases cause
      | ioError tag a b op implicit inactive d0 => exact ⟨tag, a, b, op, of_decide_eq_true implicit, inactive, d0⟩
  · rcases runCommand_cases h with ⟨i, decoded, -⟩ | ⟨bad, rfl⟩
    · exact absurd decoded (unnamed i)
    · have answer : State.Sends (fun _ q => q = { status := .badArgument, opc := opcOf c.frame, tag := tagOf c.frame }) s
          (s.raise .badArgument (opcOf c.frame) (tagOf c.frame)) := (State.Sends.none rfl rfl).respond rfl
      obtain rfl := answer.of_mem sent hr
      exact ⟨rfl, rfl, rfl, rfl, bad⟩

end Sys2Proof.Machine
end

section
/-! PROOFS. The frames on port N and the modes of the line (60_exceptions.md R290, R291, R297): a step makes at most one
change-state call, and what the call writes says which instruction made it. -/

namespace Sys2Proof.Machine

variable {i : Instr} {s t u : State} {p : Port}

/-! ### StateChanged frames (R290) -/

/-- The instructions that can change `State`, by OPC and SEL. -/
abbrev mayChangeLine (o l : Byte) : Prop :=
  o ∈ [0x10#8, 0x11#8, 0x12#8, 0x13#8, 0x14#8] ∨ o = 0x30#8 ∧ (l = 0x00#8 ∨ l = 0x0E#8)

theorem LineCall.mayChangeLine {n m : Word} (h : LineCall i s n m) (changed : mergeBits s.line n m ≠ s.line) :
    mayChangeLine i.opc i.sel := by
  cases h with
  | none => exact absurd (mergeBits_none _ _) changed
  | acquire blocking tag q op => exact .inl (by rw [op]; exact List.mem_of_elem_eq_true rfl)
  | release tag op => exact .inl (by rw [op]; exact List.mem_of_elem_eq_true rfl)
  | fold n op =>
    rcases op with op | op
    · exact .inl (by rw [op]; decide)
    · exact .inl (by rw [op]; decide)
  | signals n m op => exact .inl (by rw [op]; decide)
  | event n m op held change =>
    refine .inr ⟨op, ?_⟩
    rcases change with rfl | ⟨-, -, tag, a, rfl, -⟩ | ⟨-, tag, a, rfl⟩
    · exact absurd (mergeBits_none _ _) changed
    · exact .inl rfl
    · exact .inr rfl

/-- What a step sends on port N, and what must hold of it: `snapshot` where it sends a ConfigSnapshot, `change` where it
changes `State`. -/
structure State.Notifies (s t : State) (snapshot change : Prop) : Prop where
  frames : ∃ snaps, t.outN = s.outN ++ (if t.line ≠ s.line then [.stateChanged t.line] else []) ++ snaps ∧
    (snaps = [] ∨ snaps = [.configSnapshot t.bank.snapshot] ∧ snapshot)
  changed : t.line ≠ s.line → change

theorem State.Notifies.of_called {n m : Word} {snapshot change : Prop} (h : s.Called t n m [])
    (changed : t.line ≠ s.line → change) : s.Notifies t snapshot change := ⟨⟨[], h.outN, .inl rfl⟩, changed⟩

theorem State.Notifies.none {snapshot change : Prop} (line : t.line = s.line) (outN : t.outN = s.outN) :
    s.Notifies t snapshot change := .of_called (.none line outN) (absurd line)

theorem LineEffect.notifies (h : LineEffect i s t) :
    s.Notifies t (i.opc = 0x30#8 ∨ i.opc = 0x18#8) (mayChangeLine i.opc i.sel) := by
  cases h with
  | plain n m call called => exact .of_called called fun changed => call.mayChangeLine (called.line ▸ changed)
  | snapshot n m call called op =>
    exact ⟨⟨_, called.outN, .inr ⟨rfl, op⟩⟩, fun changed => call.mayChangeLine (called.line ▸ changed)⟩

/-- A command's frame names its instruction by OPC and SEL. -/
theorem runCommand_notifies {c : Command} (h : runCommand c s = .next t) :
    s.Notifies t (opcOf c.frame = 0x30#8 ∨ opcOf c.frame = 0x18#8) (mayChangeLine (opcOf c.frame) (selOf c.frame)) := by
  rcases runCommand_cases h with ⟨i, decoded, h⟩ | ⟨-, rfl⟩
  · have fields := (decode_eq_ok_iff.mp decoded).fields
    rw [← fields.opc, ← fields.sel]
    exact (exec_effect h).line.notifies
  · exact .none (s.respond_line _) (s.respond_outN _)

/-- A port that is asked for a command takes none, or carries out the first that waits. -/
theorem acceptStep_cases (h : acceptStep p s = .next t) :
    t = s ∨ ∃ c rest, s.pend p = c :: rest ∧ runCommand c (s.taking p rest) = .next t := by
  unfold acceptStep at h
  split at h
  · cases h
    exact .inl rfl
  · next c rest first =>
    split at h
    · exact .inr ⟨c, rest, first, h⟩
    · cases h
      exact .inl rfl

/-- The turns that can send a ConfigSnapshot (R291). -/
def Turn.snapshots (turn : Turn) (s : State) : Prop :=
  ∃ p c rest, turn = .accept p ∧ s.pend p = c :: rest ∧ (opcOf c.frame = 0x30#8 ∨ opcOf c.frame = 0x18#8)

/-- The turns that can change `State` (R290). -/
def Turn.changesState (turn : Turn) (s : State) : Prop :=
  (∃ w x, turn = .retest w ∧ s.slot w = some x ∧ x.kind = .acq) ∨
  (∃ p job n moved, turn = .transfer p ∧ s.xfer p = .fold job n moved) ∨
  ∃ p c rest, turn = .accept p ∧ s.pend p = c :: rest ∧ mayChangeLine (opcOf c.frame) (selOf c.frame)

/-- A turn sends the frames that R290 and R291 allow, and changes `State` only where R290 does. -/
abbrev Turn.Notifies (turn : Turn) (s t : State) : Prop := s.Notifies t (turn.snapshots s) (turn.changesState s)

theorem acceptStep_notifies (h : acceptStep p s = .next t) : (Turn.accept p).Notifies s t := by
  rcases acceptStep_cases h with rfl | ⟨c, rest, first, h⟩
  · exact .none rfl rfl
  · obtain ⟨⟨snaps, sent, allowed⟩, changed⟩ := runCommand_notifies h
    rw [State.taking_line] at sent changed
    rw [State.taking_outN] at sent
    refine ⟨⟨snaps, sent, ?_⟩, fun differs => .inr (.inr ⟨p, c, rest, rfl, first, changed differs⟩)⟩
    exact allowed.imp_right fun ⟨snapshot, op⟩ => ⟨snapshot, p, c, rest, rfl, first, op⟩

/-- A re-test changes `State` only where it acquires the line (R166). -/
theorem State.retest_notifies {w : Nat} {x : Wait} (slot : s.slot w = some x) :
    (Turn.retest w).Notifies s (s.retest w x) := by
  unfold State.retest
  split
  · unfold State.retestWatch
    split
    · exact .none (by simp) (by simp)
    · exact .none (by simp) (by simp)
    · exact .none rfl rfl
  · next kind =>
    unfold State.retestAcquire
    split
    · exact .none rfl rfl
    · have called : s.Called (s.setSlot w none).acquisition _ _ [] :=
        (State.Called.changeState (s.setSlot w none).rebuild _ _).after rfl rfl
      exact .of_called (called.before (State.send_line _ _ _) (State.send_outN _ _ _))
        fun _ => .inl ⟨w, x, rfl, slot, kind⟩

theorem retestStep_notifies (s : State) (w : Nat) : (Turn.retest w).Notifies s (retestStep w s) := by
  unfold retestStep
  split
  · next slot =>
    split
    · exact State.retest_notifies slot
    · exact .none rfl rfl
  · exact .none rfl rfl

theorem copyStep_notifies {turn : Turn} {job : XferJob} (h : copyStep p job s = .next t) : turn.Notifies s t := by
  unfold copyStep at h
  split at h
  all_goals
    split at h
    · cases h
      exact .none (State.setXfer_line _ p _) (State.setXfer_outN _ p _)
    · cases h

theorem transferStep_notifies (h : transferStep p s = .next t) : (Turn.transfer p).Notifies s t := by
  unfold transferStep at h
  split at h
  · cases h
    exact .none rfl rfl
  · exact copyStep_notifies h
  · next job n moved flight =>
    cases h
    have called : s.Called (s.setXfer p .idle).fold _ _ [] :=
      (State.Called.changeState (s.setXfer p .idle) _ _).after (s.setXfer_line p .idle) (s.setXfer_outN p .idle)
    exact .of_called (called.before (State.send_line _ _ _) (State.send_outN _ _ _))
      fun _ => .inr (.inl ⟨p, job, n, moved, rfl, flight⟩)

/-- Settles O49: every turn makes at most one change-state call, which sends the new word if it differs, and an event or a
SNAPSHOT sends its frame after that. -/
theorem stateChangedOnEveryDelta : Obligations.StateChangedOnEveryDelta := by
  intro turn s t noReset h
  suffices notifies : turn.Notifies s t from ⟨notifies.frames, notifies.changed⟩
  cases turn with
  | present p c =>
    cases h
    exact .none (s.setPend_line p _) (s.setPend_outN p _)
  | accept p => exact acceptStep_notifies h
  | retest w =>
    cases h
    exact retestStep_notifies s w
  | transfer p => exact transferStep_notifies h
  | reset => exact absurd rfl noReset

/-! ### Modes of the line (R297) -/

/-- A change of bits apart from a bit leaves the bit. -/
theorem mergeBits_apart {old n m bit : Word} (apart : m &&& bit = 0#32) : mergeBits old n m &&& bit = old &&& bit := by
  apply BitVec.eq_of_getLsbD_eq
  intro j _
  rw [BitVec.getLsbD_and, BitVec.getLsbD_and, mergeBits_bit]
  split
  · next hm => rw [and_eq_zero_iff.mp apart j hm, Bool.and_false, Bool.and_false]
  · rfl

/-- What an instruction can do to the mode bits of `State`. -/
inductive ModeChange (i : Instr) (s t : State) : Prop
  | kept (acquired : hasBit t.line Bit.acquired ↔ hasBit s.line Bit.acquired)
      (active : hasBit t.line Bit.active ↔ hasBit s.line Bit.active)
  | acquired (blocking : Bool) (tag : Tag) (op : i = .acquire blocking tag) (running : s.terminating = false)
      (released : ¬ hasBit s.line Bit.acquired) (inactive : ¬ hasBit t.line Bit.active)
  | released (tag : Tag) (op : i = .release tag) (running : s.terminating = false) (line : t.line = 0#32)
  | activated (tag : Tag) (a : Word) (op : i = .execEvActive tag a) (on : a ≠ 0#32)
      (held : hasBit s.line Bit.acquired) (acquired : hasBit t.line Bit.acquired ↔ hasBit s.line Bit.acquired)
      (active : hasBit t.line Bit.active)
  | deactivated (tag : Tag) (op : i = .execEvActive tag 0#32)
      (acquired : hasBit t.line Bit.acquired ↔ hasBit s.line Bit.acquired) (inactive : ¬ hasBit t.line Bit.active)

/-- A change apart from both mode bits. -/
theorem ModeChange.of_apart {n m : Word} (line : t.line = mergeBits s.line n m) (acquired : m &&& Bit.acquired = 0#32)
    (active : m &&& Bit.active = 0#32) : ModeChange i s t :=
  .kept (by rw [hasBit, line, mergeBits_apart acquired]) (by rw [hasBit, line, mergeBits_apart active])

/-- A word within a mask is apart from what the mask is apart from. -/
theorem apart_of_within {m k bit : Word} (within : m &&& ~~~k = 0#32) (apart : k &&& bit = 0#32) : m &&& bit = 0#32 :=
  and_eq_zero_iff.mpr fun j hj => and_eq_zero_iff.mp apart j (and_not_eq_zero_iff.mp within j hj)

/-- What a change-state call does to the mode bits. -/
theorem LineCall.modeChange {n m : Word} (h : LineCall i s n m) (line : t.line = mergeBits s.line n m) :
    ModeChange i s t := by
  cases h with
  | none => exact .of_apart line (by decide) (by decide)
  | acquire blocking tag q op running released queue =>
    refine .acquired blocking tag op running released ?_
    rw [line, mergeBits_all, hasBit, not_not]
    exact and_or_zero (by decide) (apart_of_within queue (by decide))
  | release tag op running => exact .released tag op running (line.trans (mergeBits_all _ _))
  | fold n op => exact .of_apart line (by decide) (by decide)
  | signals n m op settable =>
    exact .of_apart line (apart_of_within settable (by decide)) (apart_of_within settable (by decide))
  | event n m op held change =>
    rcases change with rfl | ⟨rfl, bits, tag, a, event, on⟩ | ⟨rfl, -⟩
    · exact .of_apart line (by decide) (by decide)
    · have acquired : hasBit t.line Bit.acquired ↔ hasBit s.line Bit.acquired := by
        rw [hasBit, line, mergeBits_apart (by decide)]
      have active : t.line &&& Bit.active = n &&& Bit.active := by rw [line, mergeBits_and_mask]
      rcases bits with rfl | rfl
      · have off : a = 0#32 := by_contra fun h => absurd (on.mpr h) (by decide)
        subst off
        exact .deactivated tag event acquired (by rw [hasBit, active]; decide)
      · exact .activated tag a event (on.mp rfl) held acquired (by rw [hasBit, active]; decide)
    · exact .of_apart line (by decide) (by decide)

theorem LineEffect.modeChange (h : LineEffect i s t) : ModeChange i s t := by
  cases h with
  | plain n m call called => exact call.modeChange called.line
  | snapshot n m call called => exact call.modeChange called.line

/-- `Terminating` is never cleared by an instruction (R35). -/
theorem exec_terminating (h : exec i s = .next t) (stopped : s.terminating = true) : t.terminating = true :=
  (exec_carried h).updates.keeps (P := fun u => u.terminating = true) Update.terminating stopped

theorem eq_terminate_of_opc (op : i.opc = Opc.terminate) : ∃ tag, i = .terminate tag := by
  cases i with
  | terminate tag => exact ⟨tag, rfl⟩
  | _ => exact absurd (beq_iff_eq.mpr op) Bool.false_ne_true

/-- Settles O50: of the changes of the mode bits, ACQUIRE makes one, RELEASE one and EV_ACTIVE the others; `Terminating` has
one writer, which sets it. -/
theorem modeTransitions : Obligations.ModeTransitions := by
  intro i s t lineOk h
  obtain ⟨-, active_acquired, -⟩ := lineOk
  have zero (bit : Word) : ¬ hasBit 0#32 bit := not_not.mpr BitVec.zero_and
  have mode := (exec_effect h).line.modeChange
  refine ⟨fun before after => ?_, fun before after => ?_, fun before after => ?_, fun before after => ?_,
    fun changed => ⟨?_, ?_⟩, fun stopped => ⟨exec_terminating h stopped, ?_⟩⟩
  · cases mode with
    | kept acquired => exact absurd (acquired.mp after) before
    | acquired blocking tag op running _ inactive => exact ⟨⟨blocking, tag, op⟩, running, inactive⟩
    | released _ _ _ line => exact absurd (line ▸ after) (zero _)
    | activated _ _ _ _ _ acquired => exact absurd (acquired.mp after) before
    | deactivated _ _ acquired => exact absurd (acquired.mp after) before
  · cases mode with
    | kept acquired => exact absurd (acquired.mpr before) after
    | acquired _ _ _ _ released => exact absurd before released
    | released tag op running line => exact ⟨⟨tag, op⟩, running, line⟩
    | activated _ _ _ _ _ acquired => exact absurd (acquired.mpr before) after
    | deactivated _ _ acquired => exact absurd (acquired.mpr before) after
  · cases mode with
    | kept _ active => exact absurd (active.mp after) before
    | acquired _ _ _ _ _ inactive => exact absurd after inactive
    | released _ _ _ line => exact absurd (line ▸ after) (zero _)
    | activated tag a op on held => exact ⟨⟨tag, a, op, on⟩, held⟩
    | deactivated _ _ _ inactive => exact absurd after inactive
  · cases mode with
    | kept _ active => exact absurd (active.mpr before) after
    | acquired _ _ _ _ released => exact absurd (active_acquired before) released
    | released tag op => exact .inl ⟨tag, op⟩
    | activated _ _ _ _ _ _ active => exact absurd active after
    | deactivated tag op => exact .inr ⟨tag, op⟩
  · by_contra clear
    have before := mt (exec_terminating h) clear
    rw [Bool.not_eq_true] at clear before
    exact changed (clear.trans before.symm)
  · exact eq_terminate_of_opc ((exec_carried h).terminating.resolve_left changed)
  · cases mode with
    | kept acquired => exact acquired
    | acquired _ _ _ running => exact absurd stopped (not_terminating running)
    | released _ _ running => exact absurd stopped (not_terminating running)
    | activated _ _ _ _ _ acquired => exact acquired
    | deactivated _ _ acquired => exact acquired

end Sys2Proof.Machine
end

section
/-! PROOFS. A good state never stops (70_reset_and_hazards.md R343; 20_memory.md R61): the ring operations and the copy
steps stay within storage because the buffers meet their invariants, a command presented is complete, and nothing else in
the model can stop. -/

namespace Sys2Proof.Machine

variable {s : State}

/-! ### Every instruction -/

theorem exists_next_ite {c : Prop} [Decidable c] {a b : Host.Outcome State Fault Refusal} (ha : ∃ t, a = .next t)
    (hb : ∃ t, b = .next t) : ∃ t, (if c then a else b) = .next t := by
  split
  · exact ha
  · exact hb

theorem runWatchstate_exists_next (tag : Tag) (a b : Word) (s : State) : ∃ t, runWatchstate tag a b s = .next t := by
  refine exists_next_ite ⟨_, rfl⟩ (exists_next_ite ⟨_, rfl⟩ ?_)
  cases watchTest s.line a b (autoOf b) with
  | ioError => exact ⟨_, rfl⟩
  | satisfied => exact ⟨_, rfl⟩
  | unsatisfied => exact exists_next_ite ⟨_, rfl⟩ ⟨_, rfl⟩

theorem runCancelwait_exists_next (tag : Tag) (s : State) : ∃ t, runCancelwait tag s = .next t := by
  refine exists_next_ite ⟨_, rfl⟩ ?_
  cases s.slot tag.toNat with
  | none => exact ⟨_, rfl⟩
  | some x => exact ⟨_, rfl⟩

/-- Carrying out an instruction goes through: one of a direction by its buffer's invariants, any other from every state,
since it has no branch that stops. -/
theorem exec_exists_next (legal : s.params.legal) (hb : s.buffersOk) (i : Instr) : ∃ t, exec i s = .next t := by
  cases dir : ringDirOf i with
  | some d =>
    obtain ⟨t, done, -⟩ := exec_ring_fifo legal (hb.rb d) dir
    exact ⟨t, done⟩
  | none =>
    cases i with
    | acquire =>
      exact exists_next_ite ⟨_, rfl⟩ (exists_next_ite ⟨_, rfl⟩
        (exists_next_ite ⟨_, rfl⟩ (exists_next_ite ⟨_, rfl⟩ ⟨_, rfl⟩)))
    | release | setstate | deqRx => exact exists_next_ite ⟨_, rfl⟩ (exists_next_ite ⟨_, rfl⟩ ⟨_, rfl⟩)
    | watchstate => exact runWatchstate_exists_next _ _ _ s
    | cancelwait => exact runCancelwait_exists_next _ s
    | rbInit | rbPush | rbPop | rbPushbulk | rbPopbulk | rbFree | rbUsed | rbCap | rbStatus | rbBegindr | rbEnddr
    | rbClose => cases dir
    | _ => exact ⟨_, rfl⟩

/-! ### Every turn -/

/-- A complete command is carried out or, where its frame names no instruction, answered BadArgument (R98, R343). -/
theorem runCommand_exists_next (legal : s.params.legal) (hb : s.buffersOk) {c : Command} (complete : completeCommand c) :
    ∃ t, runCommand c s = .next t := by
  cases decoded : decode c.frame c.payload with
  | ok i =>
    rw [runCommand_decoded decoded]
    exact exec_exists_next legal hb i
  | error e => exact ⟨_, runCommand_refused s decoded fun length => complete (length ▸ decoded)⟩

theorem acceptStep_exists_next (legal : s.params.legal) (hb : s.buffersOk) (p : Port)
    (complete : ∀ c ∈ s.pend p, completeCommand c) : ∃ t, acceptStep p s = .next t := by
  by_cases idle : s.xfer p = .idle
  · cases first : s.pend p with
    | nil => exact ⟨s, by rw [acceptStep, first]⟩
    | cons c rest =>
      rw [acceptStep_first first idle]
      obtain ⟨legal', hb'⟩ : (s.taking p rest).params.legal ∧ (s.taking p rest).buffersOk := by
        cases p with
        | H => exact ⟨legal, hb⟩
        | W => exact ⟨legal, hb⟩
      exact runCommand_exists_next legal' hb' (complete c (first ▸ List.mem_cons_self))
  · exact ⟨s, acceptStep_busy idle⟩

theorem transferStep_exists_next (hb : s.buffersOk) (p : Port) : ∃ t, transferStep p s = .next t := by
  by_cases idle : s.xfer p = .idle
  · exact ⟨s, by rw [transferStep, idle]⟩
  · obtain ⟨t, moved, -⟩ := transferStep_progress hb idle
    exact ⟨t, moved⟩

theorem takeTurn_exists_next (legal : s.params.legal) (hb : s.buffersOk)
    (complete : ∀ p, ∀ c ∈ s.pend p, completeCommand c) (turn : Turn) : ∃ t, takeTurn turn s = .next t := by
  cases turn with
  | present p c => exact ⟨_, rfl⟩
  | accept p => exact acceptStep_exists_next legal hb p (complete p)
  | retest w => exact ⟨_, rfl⟩
  | transfer p => exact transferStep_exists_next hb p
  | reset => exact ⟨_, rfl⟩

/-! ### The statement -/

/-- Settles O58: the turn is a scheduled one, a free agent's or nobody's, and every turn goes through by three parts of the
invariant: legal parameters, the buffers' invariants and complete commands. -/
theorem goodStateNeverStops : Obligations.GoodStateNeverStops := by
  intro s inv
  obtain ⟨complete, -⟩ := State.inputsOk_iff.mp inv.inputs
  cases scheduled : s.schedule with
  | cons turn turns =>
    rw [step_scheduled scheduled]
    refine takeTurn_exists_next (s := { s with schedule := turns }) inv.params inv.buffers (fun p => ?_) turn
    rw [State.withSchedule_pend]
    exact complete p
  | nil =>
    cases free : s.freeTurn with
    | some turn =>
      rw [step_free scheduled free]
      exact takeTurn_exists_next inv.params inv.buffers complete turn
    | none => exact ⟨s, by rw [step, scheduled, free]⟩

end Sys2Proof.Machine
end
